-- ==== Sys2Proof/Word.lean ====
section
/-! DEFINITION. The word types of the FinalFrame framing block: the byte (00_scope.md R5) and the
command word (30_encoding.md R58), and the fixed-length byte groups a header and a footer are. -/

namespace Sys2Proof

/-- A byte: 8 bits, read as an unsigned number 0 to 255 (00_scope.md R5). -/
abbrev Byte := BitVec 8

/-- A command word, format `CMD16` (30_encoding.md R58). -/
abbrev CmdWord := BitVec 16

/-- Eight bytes, `b0` the first on the wire: a header, or header scratch (30_encoding.md R50, R61). -/
structure Bytes8 where
  b0 : Byte
  b1 : Byte
  b2 : Byte
  b3 : Byte
  b4 : Byte
  b5 : Byte
  b6 : Byte
  b7 : Byte
  deriving DecidableEq, Repr, Inhabited

/-- Four bytes, `b0` the first on the wire: a footer, or footer scratch (30_encoding.md R50, R61). -/
structure Bytes4 where
  b0 : Byte
  b1 : Byte
  b2 : Byte
  b3 : Byte
  deriving DecidableEq, Repr, Inhabited

end Sys2Proof
end

