-- ==== Sys2Proof/Syntax.lean ====
section
/-! DEFINITION. The command set: one constructor per row of spec/opcode_table.json. A constructor
carries what the command WORD carries (30_encoding.md R58); the other operands of R61 arrive on the
operand ports, which the machine's state holds (log entry 2). -/

namespace Sys2Proof

/-- A command of the block, 30_encoding.md R59. -/
inductive Instr where
  /-- 40_encoder_units.md R70. -/
  | hdrenc
  /-- 40_encoder_units.md R71. -/
  | ftrgen
  /-- 41_reader_units.md R80. -/
  | hdrdec
  /-- 41_reader_units.md R81. -/
  | szchk
  /-- 41_reader_units.md R82. -/
  | plen
  /-- 41_reader_units.md R83. -/
  | ftrchk
  /-- 41_reader_units.md R84. -/
  | catchk
  /-- 42_frame_operations.md R90. -/
  | encode
  /-- 42_frame_operations.md R91. -/
  | read
  /-- 42_frame_operations.md R92; `cat` is `arg8`, the allowed category. -/
  | readc (cat : Byte)
  /-- 43_counter_access.md R100; `idx` is bits 10:8 of the word, the register number. -/
  | cntrd (idx : BitVec 3)
  deriving DecidableEq, Repr

end Sys2Proof
end

