-- ==== Sys2Proof/WellFormed.lean ====
section
/-! DEFINITION. Which commands are legal once their row is selected (30_encoding.md R60). -/

namespace Sys2Proof

/-- `CNTRD` with a reserved register number, 5 to 7, is an illegal command word (30_encoding.md R60,
10_state.md R17); every other command of `Instr` is legal. -/
def Instr.wellFormed : Instr → Bool
  | .hdrenc => true
  | .ftrgen => true
  | .hdrdec => true
  | .szchk => true
  | .plen => true
  | .ftrchk => true
  | .catchk => true
  | .encode => true
  | .read => true
  | .readc _ => true
  | .cntrd idx => decide (idx.toNat ≤ 4)

/-- The instruction is legal, as a proposition. -/
abbrev Instr.WellFormed (i : Instr) : Prop := i.wellFormed = true

end Sys2Proof
end

