-- ==== Sys2Proof/Decode.lean ====
section
/-! DEFINITION. Decoding a command word (30_encoding.md R58 to R60), and the encoder. -/

namespace Sys2Proof

/-- Why a command word selects no row of the opcode table (30_encoding.md R60). Each of them is the
fault `ILLEGAL_CMD` (60_exceptions.md R112). -/
inductive Reject where
  /-- `op` is 0x0 or 0xC to 0xF. -/
  | noSuchOp
  /-- Bits 7:4 are not 0. -/
  | zeroFieldSet
  /-- `arg8` is not 0 on a command that takes no argument. -/
  | argumentSet
  /-- `CNTRD` with one of bits 15:11 set. -/
  | indexBitsSet
  deriving DecidableEq, Repr

/-- Bits 3:0, the opcode (30_encoding.md R58). -/
def opField (w : CmdWord) : BitVec 4 := w.extractLsb' 0 4

/-- Bits 7:4, which must be 0 (30_encoding.md R58). -/
def zeroField (w : CmdWord) : BitVec 4 := w.extractLsb' 4 4

/-- Bits 15:8, the argument (30_encoding.md R58). -/
def arg8Field (w : CmdWord) : Byte := w.extractLsb' 8 8

/-- Bits 10:8, the register number of `CNTRD` (30_encoding.md R58, 43_counter_access.md R100). -/
def idxField (w : CmdWord) : BitVec 3 := w.extractLsb' 8 3

/-- Bits 15:11, zero on `CNTRD` (30_encoding.md R58). -/
def idxHighField (w : CmdWord) : BitVec 5 := w.extractLsb' 11 5

/-- A command that takes no argument: its `arg8` must be 0 (30_encoding.md R58). -/
def decodeNoArg (w : CmdWord) (i : Instr) : Except Reject Instr :=
  if arg8Field w = 0 then .ok i else .error .argumentSet

/-- The row of the opcode table a word selects (30_encoding.md R59), or the reason why it selects
none (R60). A reserved register number of `CNTRD` selects its row, as the row's mask says, and is
refused by `Instr.wellFormed` and by the command's own meaning (log entry 22). -/
def decode (w : CmdWord) : Except Reject Instr :=
  if zeroField w ≠ 0 then .error .zeroFieldSet
  else match (opField w).toNat with
    | 1 => decodeNoArg w .hdrenc
    | 2 => decodeNoArg w .ftrgen
    | 3 => decodeNoArg w .hdrdec
    | 4 => decodeNoArg w .szchk
    | 5 => decodeNoArg w .plen
    | 6 => decodeNoArg w .ftrchk
    | 7 => decodeNoArg w .catchk
    | 8 => decodeNoArg w .encode
    | 9 => decodeNoArg w .read
    | 10 => .ok (.readc (arg8Field w))
    | 11 => if idxHighField w = 0 then .ok (.cntrd (idxField w)) else .error .indexBitsSet
    | _ => .error .noSuchOp

/-- A word is a legal command: it selects a row and the command is well formed (30_encoding.md R60). -/
def legalWord (w : CmdWord) : Bool :=
  match decode w with
  | .ok i => i.wellFormed
  | .error _ => false

/-- The opcode of a command (30_encoding.md R59). -/
def opcode : Instr → BitVec 4
  | .hdrenc => 0x1
  | .ftrgen => 0x2
  | .hdrdec => 0x3
  | .szchk => 0x4
  | .plen => 0x5
  | .ftrchk => 0x6
  | .catchk => 0x7
  | .encode => 0x8
  | .read => 0x9
  | .readc _ => 0xA
  | .cntrd _ => 0xB

/-- The `arg8` byte of a command, `{0b00000, idx}` for `CNTRD` (30_encoding.md R58, R59). -/
def argument : Instr → Byte
  | .hdrenc => 0
  | .ftrgen => 0
  | .hdrdec => 0
  | .szchk => 0
  | .plen => 0
  | .ftrchk => 0
  | .catchk => 0
  | .encode => 0
  | .read => 0
  | .readc cat => cat
  | .cntrd idx => idx.setWidth 8

/-- The command word: `arg8` in 15:8, zero in 7:4, `op` in 3:0 (30_encoding.md R58). -/
def encode (i : Instr) : CmdWord := argument i ++ ((0 : BitVec 4) ++ opcode i)

/-- The command that a word of `nbits` bits, its higher bits zero, decodes to. The command word is one
16-bit value on the command port and lies in no memory, so no byte order enters. -/
def decodeTableWord (nbits w : Nat) : Option Instr :=
  match decode (BitVec.ofNat 16 (w % 2 ^ nbits)) with
  | .ok i => some i
  | .error _ => none

end Sys2Proof
end

