-- ==== Sys2Proof/Machine/Ports.lean ====
section
/-! DEFINITION. The plain data that crosses the block's boundary: cause codes, operands, responses,
and the source stream. -/

namespace Sys2Proof.Machine

/-- The documented outcomes (60_exceptions.md R110). -/
inductive Cause where
  | ok
  | emptyInput
  | dropSize
  | dropFooter
  | ioError
  | filtered
  deriving DecidableEq, Repr

/-- The five faults of the block (60_exceptions.md R112). -/
inductive FaultCause where
  | illegalCmd
  | lenUnderflow
  | cntOverflow
  | emptyCategory
  | shortBody
  deriving DecidableEq, Repr

/-- The 4-bit code of a documented outcome (60_exceptions.md R111). -/
def Cause.code : Cause → BitVec 4
  | .ok => 0
  | .emptyInput => 1
  | .dropSize => 2
  | .dropFooter => 3
  | .ioError => 4
  | .filtered => 5

/-- The 4-bit code of a fault (60_exceptions.md R111). -/
def FaultCause.code : FaultCause → BitVec 4
  | .illegalCmd => 8
  | .lenUnderflow => 9
  | .cntOverflow => 10
  | .emptyCategory => 11
  | .shortBody => 12

/-- The operand ports (30_encoding.md R61). `n`, `t`, `now` and `avail` are unbounded naturals, as
00_scope.md R4 allows (log entry 6); `now` is the clock's draw (60_exceptions.md R118). -/
structure Operands where
  n        : Nat
  t        : Nat
  h        : Bytes8
  flen     : BitVec 16
  avail    : Nat
  f        : Bytes4
  p0       : Byte
  cat      : Byte
  pPresent : Bool
  p        : List Byte
  now      : Nat
  deriving DecidableEq, Repr, Inhabited

/-- The data part of a response, one constructor per result shape of 30_encoding.md R61. -/
inductive Data where
  /-- No data: the result `none` of a frame command. -/
  | absent
  /-- `HDRENC`. -/
  | header (h : Bytes8)
  /-- `FTRGEN`. -/
  | footer (f : Bytes4)
  /-- `HDRDEC`. -/
  | fields (flen : BitVec 16) (ftime : BitVec 24)
  /-- `SZCHK`. -/
  | sizeOk (ok : Bool)
  /-- `PLEN`; `plen` is defined only when `under` is 0. -/
  | length (under : Bool) (plen : BitVec 16)
  /-- `FTRCHK`. -/
  | footerValid (valid : Bool)
  /-- `CATCHK`. -/
  | categoryMatch (isMatch : Bool)
  /-- `ENCODE`. -/
  | frame (out : List Byte)
  /-- `READ` and `READC`. -/
  | payload (bytes : List Byte)
  /-- `CNTRD`. -/
  | value (v : Nat)
  deriving DecidableEq, Repr, Inhabited

/-- A response: `present`, `cause` and the data (30_encoding.md R62). -/
structure Response where
  present : Bool
  cause   : BitVec 4
  data    : Data
  deriving DecidableEq, Repr, Inhabited

/-- How the source answers one access (20_memory.md R36, R37; log entry 9). -/
inductive Answer where
  /-- The answer of the finite source model (20_memory.md R38). -/
  | full
  /-- At most `m` bytes: fewer than asked for, or fewer reported than the stream will hold. -/
  | upTo (m : Nat)
  /-- `Err`. -/
  | err
  /-- No answer; it stays until the source answers (60_exceptions.md R121). -/
  | stall
  deriving DecidableEq, Repr

/-- The source stream: a finite byte sequence with a cursor (20_memory.md R38), and the answers to
its coming accesses, `full` where the list has ended. -/
structure Source where
  bytes   : List Byte
  pos     : Nat
  answers : List Answer
  deriving DecidableEq, Repr, Inhabited

/-- One command of the host: its word, its operands, and the stream handed over with it, if any
(30_encoding.md R58, R61, 10_state.md R22). -/
structure Request where
  word   : CmdWord
  ops    : Operands
  attach : Option Source
  deriving DecidableEq, Repr

/-- A reply of the source to one access (20_memory.md R36). -/
inductive Reply (α : Type) where
  | answer (a : α)
  | err
  | noAnswer
  deriving DecidableEq, Repr

/-- The source access a `READ` stands at (20_memory.md R35, 42_frame_operations.md R96). -/
inductive Phase where
  | header
  | size
  | payload
  | footer (payload : List Byte)
  deriving DecidableEq, Repr

/-- A `READ` (`filter` none) or `READC` (its category) that waits for the source (60_exceptions.md R121). -/
structure Transfer where
  filter : Option Byte
  phase  : Phase
  deriving DecidableEq, Repr

/-- The four counters (10_state.md R10 to R17). -/
structure Counters where
  framesRead              : Nat
  framesDropped           : Nat
  droppedForInvalidSize   : Nat
  droppedForInvalidFooter : Nat
  deriving DecidableEq, Repr, Inhabited

/-- The hidden scratch registers (10_state.md R19). -/
structure Scratch where
  rhdr : Bytes8
  rftr : Bytes4
  ehdr : Bytes8
  eftr : Bytes4
  deriving DecidableEq, Repr, Inhabited

/-- The names of the four counters. -/
inductive CounterName where
  | framesRead
  | framesDropped
  | droppedForInvalidSize
  | droppedForInvalidFooter
  deriving DecidableEq, Repr

/-- Everything 60_exceptions.md R112 calls not defined after a fault, as one bundle of free values. -/
structure Undefined where
  response : Response
  counters : Counters
  cursor   : Nat
  accesses : Nat
  scratch  : Scratch
  deriving DecidableEq, Repr, Inhabited

end Sys2Proof.Machine
end

