-- ==== Sys2Proof/Config.lean ====
section
/-! DEFINITION. The fixed constants of the wire format (00_scope.md R1), the open parameter
`IOERR_INC_DROPPED` (R4), and the free values: opaque, so that no proof can see one. -/

namespace Sys2Proof.Config

/-- `HEADER_LEN` (00_scope.md R1). -/
abbrev headerLen : Nat := 8

/-- `FOOTER_LEN` (00_scope.md R1). -/
abbrev footerLen : Nat := 4

/-- `OVERHEAD` (00_scope.md R1). -/
abbrev overhead : Nat := headerLen + footerLen

/-- `FOOTER_BYTE` (00_scope.md R1). -/
abbrev footerByte : Byte := 0xA5

/-- The default width `CW` of the counters (00_scope.md R4, 92_eei_decisions.md D5; log entry 5). -/
abbrev defaultCounterWidth : Nat := 32

/-- `IOERR_INC_DROPPED`: open, and "a claim must hold for both values" (00_scope.md R4; log entry 7). -/
opaque ioErrIncDropped : Bool

/-- The `plen` output of `PLEN` on a length below 12 (41_reader_units.md R82; log entry 15). -/
opaque freePlen : Nat → BitVec 16 → BitVec 16

/-- The cursor after a stream error (42_frame_operations.md R97; log entry 8). -/
opaque freeCursor : Nat → Nat

/-- What `CNTRD` 0 to 3 returns while `FAULT` = 1 (43_counter_access.md R100; log entry 14). -/
opaque freeCounter : Nat → BitVec 3 → Nat

/-- What is not defined after a fault (60_exceptions.md R112; log entries 12 and 13). -/
opaque undefined : Nat → Machine.Undefined

end Sys2Proof.Config
end

