-- ==== Sys2Proof/Machine/State.lean ====
section
/-! DEFINITION. The state of one FinalFrame framing block with its ports and its environment
(10_state.md R10; INVENTORY.md, State), the reasons a step can stop, and the state after reset. -/

namespace Sys2Proof.Machine

/-- The reasons the machine stops with a fault: NONE. The block's own five faults (60_exceptions.md
R112) are next states with the fault record written (log entry 12), and a source that does not answer
is a transfer in progress (log entry 11), so no step raises a `Fault`. Safe: nothing is lost. -/
inductive Fault where
  deriving DecidableEq, Repr

/-- The reasons a step is refused. -/
inductive Refusal where
  /-- Raised by an arm of `exec` whose command has no meaning yet; every command has one, so nothing
  raises it. Safe: a refusal proves nothing. -/
  | notModelled (mnemonic : String)
  deriving DecidableEq, Repr

/-- The state: the block's registers (10_state.md R10), the transfer in progress (60_exceptions.md
R121), the ports (30_encoding.md R61, R62), the environment (10_state.md R22, 30_encoding.md R66), the
counter width (00_scope.md R4), and the model's own number of the next free value. -/
structure State where
  counters : Counters
  fault    : Bool
  fcause   : BitVec 4
  scratch  : Scratch
  transfer : Option Transfer
  ops      : Operands
  response : Option Response
  source   : Source
  pending  : List Request
  cw       : Nat
  tick     : Nat
  deriving DecidableEq, Repr

/-- Eight zero bytes. -/
def zeroBytes8 : Bytes8 := ⟨0, 0, 0, 0, 0, 0, 0, 0⟩

/-- Four zero bytes. -/
def zeroBytes4 : Bytes4 := ⟨0, 0, 0, 0⟩

/-- The state of a newly created instance (10_state.md R23, 70_reset_and_hazards.md R130): counters,
`FAULT` and `FCAUSE` 0. Scratch (log entry 16), the ports and the environment (log entry 17) and the
counter width (log entry 5) hold the values the log names. -/
def State.reset : State where
  counters := ⟨0, 0, 0, 0⟩
  fault := false
  fcause := 0
  scratch := ⟨zeroBytes8, zeroBytes4, zeroBytes8, zeroBytes4⟩
  transfer := none
  ops := ⟨0, 0, zeroBytes8, 0, 0, zeroBytes4, 0, 0, false, [], 0⟩
  response := none
  source := ⟨[], 0, []⟩
  pending := []
  cw := Config.defaultCounterWidth
  tick := 0

end Sys2Proof.Machine
end

