-- ==== Sys2Proof/Machine/Operands.lean ====
section
/-! DEFINITION. Operand forms: bytes of a field and back (20_memory.md R31 to R33), the header's
assembly and parse, the footer, the payload length, the port packing of 30_encoding.md R61. -/

namespace Sys2Proof

/-- The bytes in wire order. -/
def Bytes8.toList (b : Bytes8) : List Byte := [b.b0, b.b1, b.b2, b.b3, b.b4, b.b5, b.b6, b.b7]

/-- The bytes in wire order. -/
def Bytes4.toList (b : Bytes4) : List Byte := [b.b0, b.b1, b.b2, b.b3]

/-- Eight bytes from a sequence of exactly eight. -/
def Bytes8.ofList? : List Byte → Option Bytes8
  | [b0, b1, b2, b3, b4, b5, b6, b7] => some ⟨b0, b1, b2, b3, b4, b5, b6, b7⟩
  | _ => none

/-- Four bytes from a sequence of exactly four. -/
def Bytes4.ofList? : List Byte → Option Bytes4
  | [b0, b1, b2, b3] => some ⟨b0, b1, b2, b3⟩
  | _ => none

/-- Eight header bytes as one 64-bit value, byte 0 in bits 63:56 (30_encoding.md R61). -/
def Bytes8.pack (b : Bytes8) : BitVec 64 :=
  b.b0 ++ (b.b1 ++ (b.b2 ++ (b.b3 ++ (b.b4 ++ (b.b5 ++ (b.b6 ++ b.b7))))))

/-- The eight bytes of a 64-bit value, byte 0 from bits 63:56 (30_encoding.md R61). -/
def Bytes8.unpack (v : BitVec 64) : Bytes8 :=
  ⟨v.extractLsb' 56 8, v.extractLsb' 48 8, v.extractLsb' 40 8, v.extractLsb' 32 8,
   v.extractLsb' 24 8, v.extractLsb' 16 8, v.extractLsb' 8 8, v.extractLsb' 0 8⟩

/-- Four footer bytes as one 32-bit value, byte 0 in bits 31:24 (30_encoding.md R61). -/
def Bytes4.pack (b : Bytes4) : BitVec 32 := b.b0 ++ (b.b1 ++ (b.b2 ++ b.b3))

/-- The four bytes of a 32-bit value, byte 0 from bits 31:24 (30_encoding.md R61). -/
def Bytes4.unpack (v : BitVec 32) : Bytes4 :=
  ⟨v.extractLsb' 24 8, v.extractLsb' 16 8, v.extractLsb' 8 8, v.extractLsb' 0 8⟩

namespace Machine

/-- `ube16`: two bytes, the first the more significant, as an unsigned number (20_memory.md R32). -/
def ube16 (b0 b1 : Byte) : BitVec 16 := BitVec.ofNat 16 (b0.toNat * 256 + b1.toNat)

/-- `ube24`: three bytes, the first the most significant, as an unsigned number (20_memory.md R33). -/
def ube24 (b0 b1 b2 : Byte) : BitVec 24 :=
  BitVec.ofNat 24 (b0.toNat * 65536 + b1.toNat * 256 + b2.toNat)

/-- The value of the length field for a payload of `n` bytes (40_encoder_units.md R72). -/
def lengthField (n : Nat) : BitVec 16 := BitVec.ofNat 16 (Config.overhead + n)

/-- The value of the time field for the count `t` (40_encoder_units.md R73). -/
def timeField (t : Nat) : BitVec 24 := BitVec.ofNat 24 t

/-- The header encoder U1 (40_encoder_units.md R70): `be16` of the length, three zero bytes, `be24` of
the time. -/
def encodeHeader (n t : Nat) : Bytes8 where
  b0 := (lengthField n).extractLsb' 8 8
  b1 := (lengthField n).extractLsb' 0 8
  b2 := 0
  b3 := 0
  b4 := 0
  b5 := (timeField t).extractLsb' 16 8
  b6 := (timeField t).extractLsb' 8 8
  b7 := (timeField t).extractLsb' 0 8

/-- The footer generator H1 (40_encoder_units.md R71). -/
def generateFooter : Bytes4 :=
  ⟨Config.footerByte, Config.footerByte, Config.footerByte, Config.footerByte⟩

/-- The length field of a header, H2 (41_reader_units.md R80). -/
def headerLength (h : Bytes8) : BitVec 16 := ube16 h.b0 h.b1

/-- The time field of a header, H2 (41_reader_units.md R80). -/
def headerTime (h : Bytes8) : BitVec 24 := ube24 h.b5 h.b6 h.b7

/-- The payload length calculator U3 (41_reader_units.md R82): no value below the overhead. -/
def payloadLength (flen : BitVec 16) : Option (BitVec 16) :=
  if Config.overhead ≤ flen.toNat then some (BitVec.ofNat 16 (flen.toNat - Config.overhead)) else none

/-- The frame `ENCODE` builds (42_frame_operations.md R90): header, payload, footer (log entry 21). -/
def buildFrame (hdr : Bytes8) (payload : List Byte) (ftr : Bytes4) : List Byte :=
  hdr.toList ++ payload ++ ftr.toList

end Machine
end Sys2Proof
end

