-- ==== Sys2Proof/Machine/Flags.lean ====
section
/-! DEFINITION. The one-bit results of the reader units (10_state.md R24) and the status word
(10_state.md R18). -/

namespace Sys2Proof.Machine

/-- `ok` of the size check H3 (41_reader_units.md R81): an unsigned comparison, equality passes. -/
def sizeFits (flen : BitVec 16) (avail : Nat) : Bool := decide (flen.toNat ≤ avail)

/-- `under` of the payload length calculator (41_reader_units.md R82). -/
def lengthUnder (flen : BitVec 16) : Bool := (payloadLength flen).isNone

/-- `valid` of the footer validator U2 (41_reader_units.md R83): four byte comparisons. -/
def footerMatches (f : Bytes4) : Bool :=
  f.b0 == Config.footerByte && f.b1 == Config.footerByte && f.b2 == Config.footerByte &&
  f.b3 == Config.footerByte

/-- `match` of the category compare H4 (41_reader_units.md R84): equality of 8-bit patterns. -/
def categoryEq (p0 cat : Byte) : Bool := p0 == cat

/-- The status word `{FCAUSE[3:0], 0b000, FAULT}` (10_state.md R18). -/
def statusWord (fault : Bool) (fcause : BitVec 4) : BitVec 8 :=
  fcause ++ ((0 : BitVec 3) ++ BitVec.ofBool fault)

end Sys2Proof.Machine
end

