-- ==== Sys2Proof/Machine/Ops.lean ====
section
/-! DEFINITION. The named operations: counters, scratch, responses, the source stream, accepting a
command, and taking a fault. -/

namespace Sys2Proof.Machine

/-- Replaces the counters. -/
def State.setCounters (s : State) (c : Counters) : State := { s with counters := c }

/-- Replaces the scratch registers. -/
def State.setScratch (s : State) (x : Scratch) : State := { s with scratch := x }

/-- Replaces the source stream. -/
def State.setSource (s : State) (src : Source) : State := { s with source := src }

/-- Moves on to the next free value. -/
def State.nextTick (s : State) : State := { s with tick := s.tick + 1 }

/-- Writes `RHDR` (10_state.md R19). -/
def State.setRhdr (s : State) (h : Bytes8) : State := s.setScratch { s.scratch with rhdr := h }

/-- Writes `RFTR` (10_state.md R19). -/
def State.setRftr (s : State) (f : Bytes4) : State := s.setScratch { s.scratch with rftr := f }

/-- Writes `EHDR` (10_state.md R19). -/
def State.setEhdr (s : State) (h : Bytes8) : State := s.setScratch { s.scratch with ehdr := h }

/-- Writes `EFTR` (10_state.md R19). -/
def State.setEftr (s : State) (f : Bytes4) : State := s.setScratch { s.scratch with eftr := f }

/-- Delivers the response of a command, which ends it (30_encoding.md R66). -/
def State.respond (s : State) (r : Response) : State :=
  { s with response := some r, transfer := none }

/-- The command ends with a present result, cause `OK` (30_encoding.md R62). -/
def State.respondSome (s : State) (d : Data) : State := s.respond ⟨true, Cause.ok.code, d⟩

/-- The command ends with `none` and a diagnostic cause (60_exceptions.md R110, R114). -/
def State.respondNone (s : State) (c : Cause) : State := s.respond ⟨false, c.code, .absent⟩

/-- The command waits for the source: no response, and what it waits for is kept (60_exceptions.md
R121; log entry 11). -/
def State.await (s : State) (t : Transfer) : State := { s with transfer := some t, response := none }

/-- The value of a counter. -/
def Counters.get (c : Counters) : CounterName → Nat
  | .framesRead => c.framesRead
  | .framesDropped => c.framesDropped
  | .droppedForInvalidSize => c.droppedForInvalidSize
  | .droppedForInvalidFooter => c.droppedForInvalidFooter

/-- One counter replaced. -/
def Counters.set (c : Counters) (v : Nat) : CounterName → Counters
  | .framesRead => { c with framesRead := v }
  | .framesDropped => { c with framesDropped := v }
  | .droppedForInvalidSize => { c with droppedForInvalidSize := v }
  | .droppedForInvalidFooter => { c with droppedForInvalidFooter := v }

/-- `inc` on one counter (10_state.md R16): none where the counter is full. -/
def Counters.inc (cw : Nat) (c : Counters) (x : CounterName) : Option Counters :=
  if c.get x = 2 ^ cw - 1 then none else some (c.set (c.get x + 1) x)

/-- Several `inc`s in order; none if one of them meets a full counter. -/
def Counters.incAll (cw : Nat) (c : Counters) : List CounterName → Option Counters
  | [] => some c
  | x :: xs =>
    match c.inc cw x with
    | none => none
    | some c' => c'.incAll cw xs

/-- The undefined counters of a faulted block, each within its `CW` bits (10_state.md R16). -/
def Counters.within (cw : Nat) (c : Counters) : Counters :=
  ⟨c.framesRead % 2 ^ cw, c.framesDropped % 2 ^ cw, c.droppedForInvalidSize % 2 ^ cw,
   c.droppedForInvalidFooter % 2 ^ cw⟩

/-- The cursor at an undefined place within the stream (20_memory.md R38; log entry 8). -/
def Source.jump (src : Source) (pos : Nat) : Source := { src with pos := min pos src.bytes.length }

/-- Counters, cursor and scratch not defined (60_exceptions.md R112): free values, the next time others. -/
def State.undefine (s : State) : State :=
  { s with
    counters := (Config.undefined s.tick).counters.within s.cw
    source := s.source.jump (Config.undefined s.tick).cursor
    scratch := (Config.undefined s.tick).scratch
    tick := s.tick + 1 }

/-- TAKING A FAULT (60_exceptions.md R112, 10_state.md R18; log entry 12): `FAULT` is set, `FCAUSE`
takes the cause if `FAULT` was 0, the response carries the cause with `present` and data not defined,
and counters, cursor and scratch are not defined. There is no return from it but reset (R115). -/
def takeFault (c : FaultCause) (s : State) : State :=
  { s.undefine with
    fault := true
    fcause := bif s.fault then s.fcause else c.code
    response := some { (Config.undefined s.tick).response with cause := c.code }
    transfer := none }

/-- A command other than `CNTRD` while `FAULT` = 1 (10_state.md R18, 92_eei_decisions.md D30; log entry
13): the whole response and the undefined state are free, also how many accesses of the source it made;
the fault record stays, since nothing but reset clears it. -/
def undefinedCommand (s : State) : State :=
  { s.undefine with
    source := { s.undefine.source with
      answers := s.source.answers.drop (Config.undefined s.tick).accesses }
    response := some (Config.undefined s.tick).response
    transfer := none }

/-- The premise `FAULT` = 0 of every rule of files 40 to 42 (10_state.md R18). -/
def unlessFaulted (s : State) (run : State → State) : State :=
  bif s.fault then undefinedCommand s else run s

/-- The counters move and the command goes on, or `CNT_OVERFLOW` (10_state.md R16). -/
def count (xs : List CounterName) (s : State) (andThen : State → State) : State :=
  match s.counters.incAll s.cw xs with
  | none => takeFault .cntOverflow s
  | some c => andThen (s.setCounters c)

/-- Bytes left from the cursor to the end (20_memory.md R38). -/
def Source.left (src : Source) : Nat := src.bytes.length - src.pos

/-- How many of `k` bytes the coming answer lets through (20_memory.md R36). -/
def Source.bound (src : Source) (k : Nat) : Nat :=
  match src.answers.head? with
  | some (.upTo m) => min m k
  | _ => k

/-- The bytes an answered read of `k` bytes returns (20_memory.md R38). -/
def Source.grant (src : Source) (k : Nat) : List Byte := (src.bytes.drop src.pos).take (src.bound k)

/-- The source after an answered read: the cursor is past the bytes returned (20_memory.md R36). -/
def Source.consume (src : Source) (k : Nat) : Source :=
  { src with pos := src.pos + (src.grant k).length, answers := src.answers.tail }

/-- The state after an access that answered `Err`: the cursor is not defined (20_memory.md R36,
42_frame_operations.md R97; log entry 8). -/
def State.streamError (s : State) : State :=
  { s with
    source := { s.source.jump (Config.freeCursor s.tick) with answers := s.source.answers.tail }
    tick := s.tick + 1 }

/-- `SrcRead(k)` (20_memory.md R36, R38): the next `k` bytes, or as many as there are; `SrcRead(0)` does
not touch the source. -/
def srcRead (k : Nat) (s : State) : Reply (List Byte) × State :=
  if k = 0 then (.answer [], s)
  else match s.source.answers.head? with
    | some .stall => (.noAnswer, s)
    | some .err => (.err, s.streamError)
    | _ => (.answer (s.source.grant k), s.setSource (s.source.consume k))

/-- `SrcAvail()` (20_memory.md R37, R38; log entry 10): the number of bytes the source can still give;
none is consumed. -/
def srcAvail (s : State) : Reply Nat × State :=
  match s.source.answers.head? with
  | some .stall => (.noAnswer, s)
  | some .err => (.err, s.streamError)
  | _ => (.answer (s.source.bound s.source.left),
          s.setSource { s.source with answers := s.source.answers.tail })

/-- The host's next command is accepted with its operands, and with the stream handed over if there is
one (30_encoding.md R58, R66, 10_state.md R22; log entry 3). -/
def State.accept (s : State) (r : Request) (rest : List Request) : State :=
  { s with ops := r.ops, source := r.attach.getD s.source, pending := rest }

/-- Fetching: the command word of the host's next command and the state that has accepted it; none
where the host issues no command (30_encoding.md R66). -/
def fetch (s : State) : Option (CmdWord × State) :=
  match s.pending with
  | [] => none
  | r :: rest => some (r.word, s.accept r rest)

/-- The command word `w` put in front of what the host will issue, with the operands now on the ports. -/
def State.issue (s : State) (w : CmdWord) : State :=
  { s with pending := ⟨w, s.ops, none⟩ :: s.pending, transfer := none }

/-- An event outside the block: a source that gave no answer answers after all (60_exceptions.md R121). -/
def State.sourceAnswers (s : State) : State :=
  match s.source.answers with
  | .stall :: rest => s.setSource { s.source with answers := rest }
  | _ => s

end Sys2Proof.Machine
end

