-- ==== Sys2Proof/Machine/Counter.lean ====
section
/-! DEFINITION. Counter access, CNTRD (43_counter_access.md). -/

namespace Sys2Proof.Machine

/-- The counter with a register number (10_state.md R17). -/
def counterOf? (idx : BitVec 3) : Option CounterName :=
  match idx.toNat with
  | 0 => some .framesRead
  | 1 => some .framesDropped
  | 2 => some .droppedForInvalidSize
  | 3 => some .droppedForInvalidFooter
  | _ => none

/-- A counter read (43_counter_access.md R100): its value; while `FAULT` = 1 not defined, a free value of
`CW` bits (92_eei_decisions.md D30; log entry 14). -/
def readCounter (idx : BitVec 3) (x : CounterName) (s : State) : State :=
  bif s.fault then s.nextTick.respondSome (.value (Config.freeCounter s.tick idx % 2 ^ s.cw))
  else s.respondSome (.value (s.counters.get x))

/-- `CNTRD idx` (43_counter_access.md R100): 0 to 3 a counter, 4 the status word, which is defined also
while `FAULT` = 1, 5 to 7 the fault `ILLEGAL_CMD`. -/
def execCntrd (idx : BitVec 3) (s : State) : Host.Outcome State Fault Refusal :=
  .next (match counterOf? idx with
    | some x => readCounter idx x s
    | none =>
      if idx = 4 then s.respondSome (.value (statusWord s.fault s.fcause).toNat)
      else takeFault .illegalCmd s)

end Sys2Proof.Machine
end

