-- ==== Sys2Proof/Machine/Encoder.lean ====
section
/-! DEFINITION. The encoder units HDRENC and FTRGEN (40_encoder_units.md). -/

namespace Sys2Proof.Machine

/-- `HDRENC n, t` (40_encoder_units.md R70). -/
def execHdrenc (s : State) : Host.Outcome State Fault Refusal :=
  .next (unlessFaulted s fun s => s.respondSome (.header (encodeHeader s.ops.n s.ops.t)))

/-- `FTRGEN` (40_encoder_units.md R71). -/
def execFtrgen (s : State) : Host.Outcome State Fault Refusal :=
  .next (unlessFaulted s fun s => s.respondSome (.footer generateFooter))

end Sys2Proof.Machine
end

