-- ==== Sys2Proof/Machine/Frame.lean ====
section
/-! DEFINITION. The frame commands ENCODE, READ, READC (42_frame_operations.md). -/

namespace Sys2Proof.Machine

/-- The steps of `ENCODE` (42_frame_operations.md R90): an absent or empty payload gives `none`; else
`EHDR` and `EFTR` are written and the frame is header, payload, footer. -/
def encodeFrame (s : State) : State :=
  if s.ops.pPresent = false ∨ s.ops.p = [] then s.respondNone .emptyInput
  else
    let s1 := s.setEhdr (encodeHeader s.ops.p.length s.ops.now)
    let s2 := s1.setEftr generateFooter
    s2.respondSome (.frame (buildFrame s2.scratch.ehdr s.ops.p s2.scratch.eftr))

/-- `ENCODE p, now` (42_frame_operations.md R90). -/
def execEncode (s : State) : Host.Outcome State Fault Refusal := .next (unlessFaulted s encodeFrame)

/-- A size failure: counted, `none` (42_frame_operations.md R91 steps 1 and 3). -/
def dropSize (s : State) : State :=
  count [.framesDropped, .droppedForInvalidSize] s fun s => s.respondNone .dropSize

/-- A footer failure: counted, `none` (42_frame_operations.md R91 step 6). -/
def dropFooter (s : State) : State :=
  count [.framesDropped, .droppedForInvalidFooter] s fun s => s.respondNone .dropFooter

/-- A stream error (42_frame_operations.md R91, label IOERR): counted where `IOERR_INC_DROPPED`. -/
def ioError (s : State) : State :=
  count (if Config.ioErrIncDropped then [.framesDropped] else []) s fun s => s.respondNone .ioError

/-- The category filter lets the payload through (42_frame_operations.md R92); never asked of an empty
payload under a filter, which faults before. -/
def passesFilter (filter : Option Byte) (payload : List Byte) : Bool :=
  match filter, payload with
  | some cat, p0 :: _ => categoryEq p0 cat
  | _, _ => true

/-- Steps 6 to 8 once the footer is in `RFTR` (42_frame_operations.md R91). -/
def readFinish (filter : Option Byte) (payload : List Byte) (s : State) : State :=
  if footerMatches s.scratch.rftr = false then dropFooter s
  else if filter.isSome = true ∧ payload = [] then takeFault .emptyCategory s
  else count [.framesRead] s fun s =>
    if passesFilter filter payload then s.respondSome (.payload payload) else s.respondNone .filtered

/-- Step 6: the footer read (42_frame_operations.md R91). -/
def readFooter (filter : Option Byte) (payload : List Byte) (s : State) : State :=
  match srcRead Config.footerLen s with
  | (.noAnswer, s1) => s1.await ⟨filter, .footer payload⟩
  | (.err, s1) => ioError s1
  | (.answer b, s1) =>
    match Bytes4.ofList? b with
    | none => takeFault .shortBody s1
    | some f => readFinish filter payload (s1.setRftr f)

/-- Step 5: the payload length and the payload read (42_frame_operations.md R91). -/
def readPayload (filter : Option Byte) (s : State) : State :=
  match payloadLength (headerLength s.scratch.rhdr) with
  | none => takeFault .lenUnderflow s
  | some plen =>
    match srcRead plen.toNat s with
    | (.noAnswer, s1) => s1.await ⟨filter, .payload⟩
    | (.err, s1) => ioError s1
    | (.answer b, s1) =>
      if b.length < plen.toNat then takeFault .shortBody s1 else readFooter filter b s1

/-- Step 3: the size check (42_frame_operations.md R91); the 8 header bytes count as available. -/
def readSize (filter : Option Byte) (s : State) : State :=
  match srcAvail s with
  | (.noAnswer, s1) => s1.await ⟨filter, .size⟩
  | (.err, s1) => ioError s1
  | (.answer a, s1) =>
    if sizeFits (headerLength s1.scratch.rhdr) (Config.headerLen + a) then readPayload filter s1
    else dropSize s1

/-- Step 1: the header read (42_frame_operations.md R91). -/
def readHeader (filter : Option Byte) (s : State) : State :=
  match srcRead Config.headerLen s with
  | (.noAnswer, s1) => s1.await ⟨filter, .header⟩
  | (.err, s1) => ioError s1
  | (.answer b, s1) =>
    match Bytes8.ofList? b with
    | none => dropSize s1
    | some h => readSize filter (s1.setRhdr h)

/-- `READ` (42_frame_operations.md R91). -/
def execRead (s : State) : Host.Outcome State Fault Refusal :=
  .next (unlessFaulted s (readHeader none))

/-- `READC cat` (42_frame_operations.md R92). -/
def execReadc (cat : Byte) (s : State) : Host.Outcome State Fault Refusal :=
  .next (unlessFaulted s (readHeader (some cat)))

/-- A waiting `READ` or `READC` asks the source again at the access it waits at (60_exceptions.md R121). -/
def resumeAt (t : Transfer) (s : State) : State :=
  match t.phase with
  | .header => readHeader t.filter s
  | .size => readSize t.filter s
  | .payload => readPayload t.filter s
  | .footer payload => readFooter t.filter payload s

/-- The step of a block whose command waits for the source (60_exceptions.md R121). -/
def resumeRead (t : Transfer) (s : State) : Host.Outcome State Fault Refusal :=
  .next (unlessFaulted s (resumeAt t))

end Sys2Proof.Machine
end

