-- ==== Sys2Proof/Machine/Reader.lean ====
section
/-! DEFINITION. The reader units HDRDEC, SZCHK, PLEN, FTRCHK, CATCHK (41_reader_units.md R85: pure). -/

namespace Sys2Proof.Machine

/-- `HDRDEC h` (41_reader_units.md R80). -/
def execHdrdec (s : State) : Host.Outcome State Fault Refusal :=
  .next (unlessFaulted s fun s =>
    s.respondSome (.fields (headerLength s.ops.h) (headerTime s.ops.h)))

/-- `SZCHK flen, avail` (41_reader_units.md R81). -/
def execSzchk (s : State) : Host.Outcome State Fault Refusal :=
  .next (unlessFaulted s fun s => s.respondSome (.sizeOk (sizeFits s.ops.flen s.ops.avail)))

/-- The result of `PLEN` (41_reader_units.md R82): below the overhead `plen` is not defined, a free value. -/
def respondLength (s : State) : State :=
  match payloadLength s.ops.flen with
  | some plen => s.respondSome (.length (lengthUnder s.ops.flen) plen)
  | none =>
    s.nextTick.respondSome (.length (lengthUnder s.ops.flen) (Config.freePlen s.tick s.ops.flen))

/-- `PLEN flen` (41_reader_units.md R82). -/
def execPlen (s : State) : Host.Outcome State Fault Refusal := .next (unlessFaulted s respondLength)

/-- `FTRCHK f` (41_reader_units.md R83). -/
def execFtrchk (s : State) : Host.Outcome State Fault Refusal :=
  .next (unlessFaulted s fun s => s.respondSome (.footerValid (footerMatches s.ops.f)))

/-- `CATCHK p0, cat` (41_reader_units.md R84). -/
def execCatchk (s : State) : Host.Outcome State Fault Refusal :=
  .next (unlessFaulted s fun s => s.respondSome (.categoryMatch (categoryEq s.ops.p0 s.ops.cat)))

end Sys2Proof.Machine
end

