-- ==== Sys2Proof/Machine/Dispatch.lean ====
section
/-! DEFINITION. The dispatch: one arm per command. -/

namespace Sys2Proof.Machine

def exec (i : Instr) (s : State) : Host.Outcome State Fault Refusal :=
  match i with
  | .hdrenc => Sys2Proof.Machine.execHdrenc s
  | .ftrgen => Sys2Proof.Machine.execFtrgen s
  | .hdrdec => Sys2Proof.Machine.execHdrdec s
  | .szchk => Sys2Proof.Machine.execSzchk s
  | .plen => Sys2Proof.Machine.execPlen s
  | .ftrchk => Sys2Proof.Machine.execFtrchk s
  | .catchk => Sys2Proof.Machine.execCatchk s
  | .encode => Sys2Proof.Machine.execEncode s
  | .read => Sys2Proof.Machine.execRead s
  | .readc cat => Sys2Proof.Machine.execReadc cat s
  | .cntrd idx => Sys2Proof.Machine.execCntrd idx s

end Sys2Proof.Machine
end

