-- ==== Sys2Proof/Machine/Step.lean ====
section
/-! DEFINITION. One step of the machine: the waiting command, or the host's next one (30_encoding.md R66). -/

namespace Sys2Proof.Machine

/-- The command of an accepted word runs; a word that selects no row is the fault `ILLEGAL_CMD`
(30_encoding.md R60, 60_exceptions.md R112). -/
def runWord (w : CmdWord) (s : State) : Host.Outcome State Fault Refusal :=
  match decode w with
  | .ok i => exec i s
  | .error _ => .next (takeFault .illegalCmd s)

/-- One step (30_encoding.md R66): a command that waits for the source asks it again; otherwise the
host's next command is accepted and runs to its response; with no command issued the block waits (log
entry 4). -/
def step (s : State) : Host.Outcome State Fault Refusal :=
  match s.transfer with
  | some t => resumeRead t s
  | none =>
    match fetch s with
    | none => .next s
    | some (w, s') => runWord w s'

/-- The state in which the host issues next the command word of `nbits` bits `w`, its higher bits zero,
with the operands that stand on the ports; no transfer is in progress, so that the next step accepts
it (log entry 3). -/
def State.withFetchWord (s : State) (nbits w : Nat) : State :=
  s.issue (BitVec.ofNat 16 (w % 2 ^ nbits))

end Sys2Proof.Machine
end

