-- ==== Sys2Proof/Safety.lean ====
section
/-! DEFINITION. What counts as a safe state, and the terms statements are made in. -/

namespace Sys2Proof.Machine

/-- The cursor stands within the stream (20_memory.md R38). -/
def Source.InRange (src : Source) : Prop := src.pos ≤ src.bytes.length

/-- Each counter holds a number of `CW` bits (10_state.md R16). -/
def Counters.Fits (cw : Nat) (c : Counters) : Prop :=
  c.framesRead < 2 ^ cw ∧ c.framesDropped < 2 ^ cw ∧ c.droppedForInvalidSize < 2 ^ cw ∧
  c.droppedForInvalidFooter < 2 ^ cw

/-- `FCAUSE` is 0 until a fault and one of the five fault codes afterwards (10_state.md R18,
60_exceptions.md R111, R112). -/
def State.FaultRecordOk (s : State) : Prop :=
  (s.fault = false → s.fcause = 0) ∧ (s.fault = true → 8 ≤ s.fcause.toNat ∧ s.fcause.toNat ≤ 12)

/-- While `FAULT` = 0 the drops cover their two reasons (10_state.md R25). -/
def State.DropsCovered (s : State) : Prop :=
  s.fault = false →
    s.counters.droppedForInvalidSize + s.counters.droppedForInvalidFooter ≤ s.counters.framesDropped

/-- While `FAULT` = 0 the drops are exactly their two reasons (10_state.md R25, where
`IOERR_INC_DROPPED` is false). -/
def State.DropsAddUp (s : State) : Prop :=
  s.fault = false →
    s.counters.framesDropped = s.counters.droppedForInvalidSize + s.counters.droppedForInvalidFooter

/-- What the access a waiting command stands at implies of the header read (42_frame_operations.md R91). -/
def Phase.Fits (p : Phase) (rhdr : Bytes8) : Prop :=
  match p with
  | .header => True
  | .size => True
  | .payload => 12 < (headerLength rhdr).toNat
  | .footer got => got.length + 12 = (headerLength rhdr).toNat

/-- A command that waits for the source: no fault has happened, no response has been delivered, and
what it keeps fits the header it has read (60_exceptions.md R121). -/
def State.TransferOk (s : State) : Prop :=
  ∀ t, s.transfer = some t → s.fault = false ∧ s.response = none ∧ t.phase.Fits s.scratch.rhdr

/-- Every stream the host will hand over has its cursor within it. -/
def State.PendingOk (s : State) : Prop :=
  ∀ r ∈ s.pending, ∀ src, r.attach = some src → src.InRange

/-- The invariant of the machine. -/
structure State.Inv (s : State) : Prop where
  countersFit : s.counters.Fits s.cw
  sourceInRange : s.source.InRange
  faultRecordOk : s.FaultRecordOk
  dropsCovered : s.DropsCovered
  transferOk : s.TransferOk
  pendingOk : s.PendingOk

/-- A state of which the spec's rules speak: the invariant holds and `FAULT` = 0 (10_state.md R18). -/
def State.Safe (s : State) : Prop := s.Inv ∧ s.fault = false

/-- The bytes the source still holds, from the cursor. -/
def State.upcoming (s : State) : List Byte := s.source.bytes.drop s.source.pos

/-- The source is the plain one of 20_memory.md R38: it answers every access, with all it has. -/
def State.PlainSource (s : State) : Prop := s.source.answers = [] ∧ s.source.InRange

/-- The declared length of a header, as 20_memory.md R32 combines its bytes 0 and 1. -/
abbrev declared (h : Bytes8) : Nat := h.b0.toNat * 256 + h.b1.toNat

/-- An access of a source that holds `left` more bytes is answered, `given` is how many of them the source
can give or reports, and the answers `later` follow (20_memory.md R36 to R38; log entries 9 and 10). -/
def Answered (answers : List Answer) (left given : Nat) (later : List Answer) : Prop :=
  (answers = [] ∧ given = left ∧ later = []) ∨
  (answers = .full :: later ∧ given = left) ∨
  ∃ m, answers = .upTo m :: later ∧ given = min m left

/-- The header read gives the eight bytes `hdr`, and `rest` follows them (42_frame_operations.md R91,
step 1). -/
def State.HeaderArrives (s : State) (hdr : Bytes8) (rest : List Byte) (later : List Answer) : Prop :=
  s.upcoming = hdr.toList ++ rest ∧
  ∃ given, 8 ≤ given ∧ Answered s.source.answers s.upcoming.length given later

/-- The header arrives and the source reports `avail` bytes after it (42_frame_operations.md R91,
step 3). -/
def State.SizeKnown (s : State) (hdr : Bytes8) (rest : List Byte) (avail : Nat)
    (later : List Answer) : Prop :=
  ∃ l, s.HeaderArrives hdr rest l ∧ Answered l rest.length avail later

/-- The size check passes and the payload read gives all its bytes, which for a declared length of 12 is
none and does not touch the source (42_frame_operations.md R91, step 5; 20_memory.md R36). -/
def State.PayloadArrives (s : State) (hdr : Bytes8) (rest : List Byte) (later : List Answer) : Prop :=
  ∃ avail l, s.SizeKnown hdr rest avail l ∧ 12 ≤ declared hdr ∧ declared hdr ≤ 8 + avail ∧
    ((declared hdr = 12 ∧ later = l) ∨
      (12 < declared hdr ∧ ∃ given, declared hdr ≤ given + 12 ∧ Answered l rest.length given later))

/-- The size check passes and the source gives header, payload and footer whole, each access answered in
full or with enough (42_frame_operations.md R91, step 6). -/
def State.FrameArrives (s : State) (hdr : Bytes8) (body : List Byte) (ftr : Bytes4) (rest : List Byte)
    (later : List Answer) : Prop :=
  declared hdr = 12 + body.length ∧
  ∃ l given, s.PayloadArrives hdr (body ++ ftr.toList ++ rest) l ∧ 4 ≤ given ∧
    Answered l (4 + rest.length) given later

/-- A read meets `Err`: at the header read, the availability query, the payload read, or the footer read
(42_frame_operations.md R91, the jumps to IOERR). -/
def State.MeetsErr (s : State) (later : List Answer) : Prop :=
  s.source.answers = .err :: later ∨
  (∃ hdr rest, s.HeaderArrives hdr rest (.err :: later)) ∨
  (∃ hdr rest avail, s.SizeKnown hdr rest avail (.err :: later) ∧ 12 < declared hdr ∧
    declared hdr ≤ 8 + avail) ∨
  ∃ hdr rest, s.PayloadArrives hdr rest (.err :: later)

/-- After the size check passed, the payload read or the footer read comes back short
(42_frame_operations.md R91, SHORT_BODY). -/
def State.MeetsShortBody (s : State) : Prop :=
  (∃ hdr rest avail l given later, s.SizeKnown hdr rest avail l ∧ 12 < declared hdr ∧
    declared hdr ≤ 8 + avail ∧ Answered l rest.length given later ∧ given + 12 < declared hdr) ∨
  ∃ hdr rest l given later, s.PayloadArrives hdr rest l ∧
    Answered l (rest.length - (declared hdr - 12)) given later ∧ given < 4

/-- The command that reads with a filter (`READC`) or without (`READ`). -/
def readCommand : Option Byte → Instr
  | none => .read
  | some cat => .readc cat

/-- The illegal command words, as 30_encoding.md R60 lists them: `op` is bits 3:0, `zero` bits 7:4,
`arg8` bits 15:8. -/
def IllegalWord (w : CmdWord) : Prop :=
  w.toNat % 16 = 0 ∨ 12 ≤ w.toNat % 16 ∨ w.toNat / 16 % 16 ≠ 0 ∨
  (w.toNat % 16 ≠ 10 ∧ w.toNat % 16 ≠ 11 ∧ w.toNat / 256 ≠ 0) ∨
  (w.toNat % 16 = 11 ∧ 5 ≤ w.toNat / 256)

end Sys2Proof.Machine
end

