-- ==== Sys2Proof/Certificates/Slice0/Obligations.lean ====
section
/-! DEFINITION. The statements about the FinalFrame framing block. Rule numbers are those of spec/. -/

open Sys2Proof Sys2Proof.Machine

/-! ## Reset and the command port -/

/-- 10_state.md R23: what reset leaves. Scratch is unspecified there, so nothing is said of it. -/
def Obligations.ResetClearsCountersAndFaultRecord : Prop :=
  State.reset.counters.framesRead = 0 ∧ State.reset.counters.framesDropped = 0 ∧
  State.reset.counters.droppedForInvalidSize = 0 ∧
  State.reset.counters.droppedForInvalidFooter = 0 ∧
  State.reset.fault = false ∧ State.reset.fcause = 0

/-- A step runs the decoded command: the host's next command is accepted with its operands and its
stream, if it hands one over, and exec runs it (30_encoding.md R58, R66). -/
def Obligations.StepRunsDecodedCommand : Prop :=
  ∀ (s : State) (r : Request) (rest : List Request) (i : Instr),
    s.transfer = none → s.pending = r :: rest → decode r.word = .ok i →
    step s = exec i { s with ops := r.ops, source := r.attach.getD s.source, pending := rest }

/-- The command placed by withFetchWord is the one the next step runs, on the operands that stand on
the ports (log entry 3). -/
def Obligations.PlacedWordRunsNext : Prop :=
  ∀ (s : State) (w : CmdWord) (i : Instr), decode w = .ok i →
    step (s.withFetchWord 16 w.toNat) = exec i { s with transfer := none }

/-- With no command issued and none in progress the block waits (60_exceptions.md R114; log entry 4). -/
def Obligations.BlockWaitsForCommand : Prop :=
  ∀ s : State, s.transfer = none → s.pending = [] → step s = .next s

/-- No command stops the machine (log entries 11 to 13: the model's choice). -/
def Obligations.EveryCommandAnswersNext : Prop :=
  ∀ (i : Instr) (s : State), ∃ t, exec i s = .next t

/-! ## The encoding -/

/-- 30_encoding.md R59: a word selects a row exactly when its masked bits are the row's match. -/
def Obligations.WordSelectsRowByMask : Prop :=
  ∀ w : CmdWord,
    (decode w = .ok .hdrenc ↔ w &&& 0xFFFF = 0x0001) ∧
    (decode w = .ok .ftrgen ↔ w &&& 0xFFFF = 0x0002) ∧
    (decode w = .ok .hdrdec ↔ w &&& 0xFFFF = 0x0003) ∧
    (decode w = .ok .szchk ↔ w &&& 0xFFFF = 0x0004) ∧
    (decode w = .ok .plen ↔ w &&& 0xFFFF = 0x0005) ∧
    (decode w = .ok .ftrchk ↔ w &&& 0xFFFF = 0x0006) ∧
    (decode w = .ok .catchk ↔ w &&& 0xFFFF = 0x0007) ∧
    (decode w = .ok .encode ↔ w &&& 0xFFFF = 0x0008) ∧
    (decode w = .ok .read ↔ w &&& 0xFFFF = 0x0009) ∧
    (∀ cat : Byte, decode w = .ok (.readc cat) ↔
      w &&& 0x00FF = 0x000A ∧ w.toNat / 256 = cat.toNat) ∧
    (∀ idx : BitVec 3, decode w = .ok (.cntrd idx) ↔
      w &&& 0xF8FF = 0x000B ∧ w.toNat / 256 = idx.toNat)

/-- 30_encoding.md R60: exactly the listed words are illegal. An illegal one ends as the fault ILLEGAL_CMD:
cause 8, FAULT 1, and FCAUSE 8 if FAULT was 0 (60_exceptions.md R111, R112, 10_state.md R18). That the
fault is a next state that keeps ports, requests and counter width is the model's choice, log entry 12;
that an illegal word still faults while FAULT is 1, keeping FCAUSE, is the model's choice, log entry 13. -/
def Obligations.IllegalWordTakesFault : Prop :=
  (∀ w : CmdWord, legalWord w = false ↔ IllegalWord w) ∧
  ∀ (s : State) (r : Request) (rest : List Request),
    s.transfer = none → s.pending = r :: rest → IllegalWord r.word →
    ∃ (t : State) (a : Response), step s = .next t ∧ t.response = some a ∧ a.cause = 8 ∧
      t.fault = true ∧ t.fcause = (if s.fault = true then s.fcause else 8) ∧
      t.transfer = none ∧ t.ops = r.ops ∧ t.pending = rest ∧ t.cw = s.cw

/-- Every command's word decodes to it, whatever its category or register number (30_encoding.md R58). -/
def Obligations.DecodeOfEncodedCommand : Prop :=
  ∀ i : Instr, decode (encode i) = .ok i ∧ decodeTableWord 16 (encode i).toNat = some i

/-- A word that decodes is the word of the command it decodes to: no bit is dropped (30_encoding.md R58). -/
def Obligations.EncodeOfDecodedWord : Prop :=
  ∀ (w : CmdWord) (i : Instr), decode w = .ok i → encode i = w

/-- Command words of 95_test_vectors.md, V-CW1 to V-CW14, decode as listed. -/
def Obligations.ListedWordsDecodeAsListed : Prop :=
  decode 0x0001 = .ok .hdrenc ∧ decode 0x0008 = .ok .encode ∧ decode 0x0009 = .ok .read ∧
  decode 0x300A = .ok (.readc 0x30) ∧ decode 0xFF0A = .ok (.readc 0xFF) ∧
  decode 0x000A = .ok (.readc 0x00) ∧ decode 0x030B = .ok (.cntrd 3) ∧
  decode 0x040B = .ok (.cntrd 4) ∧
  legalWord 0x0000 = false ∧ legalWord 0x000C = false ∧ legalWord 0x0019 = false ∧
  legalWord 0x0109 = false ∧ legalWord 0x050B = false ∧ legalWord 0x0B0B = false

/-- 30_encoding.md R61, last paragraph: 8 bytes as one 64-bit value, byte 0 on top; 4 bytes alike. -/
def Obligations.PortPackingPutsByteZeroOnTop : Prop :=
  (∀ b : Bytes8, b.pack.toNat =
      b.b0.toNat * 2 ^ 56 + b.b1.toNat * 2 ^ 48 + b.b2.toNat * 2 ^ 40 + b.b3.toNat * 2 ^ 32 +
      b.b4.toNat * 2 ^ 24 + b.b5.toNat * 2 ^ 16 + b.b6.toNat * 2 ^ 8 + b.b7.toNat) ∧
  (∀ b : Bytes8, Bytes8.unpack b.pack = b) ∧
  (∀ f : Bytes4, f.pack.toNat =
      f.b0.toNat * 2 ^ 24 + f.b1.toNat * 2 ^ 16 + f.b2.toNat * 2 ^ 8 + f.b3.toNat) ∧
  (∀ f : Bytes4, Bytes4.unpack f.pack = f)

/-! ## The unit commands -/

/-- 40_encoder_units.md R70, R72, R73: the header of a payload of n bytes stamped with t, nothing else
changed. -/
def Obligations.HdrencAssemblesHeader : Prop :=
  decode 0x0001 = .ok .hdrenc ∧
  ∀ s : State, s.fault = false →
    ∃ h : Bytes8,
      exec .hdrenc s =
        .next { s with response := some ⟨true, 0, .header h⟩, transfer := none } ∧
      h.b0.toNat = (12 + s.ops.n) % 65536 / 256 ∧ h.b1.toNat = (12 + s.ops.n) % 65536 % 256 ∧
      h.b2 = 0 ∧ h.b3 = 0 ∧ h.b4 = 0 ∧
      h.b5.toNat = s.ops.t % 16777216 / 65536 ∧ h.b6.toNat = s.ops.t % 16777216 / 256 % 256 ∧
      h.b7.toNat = s.ops.t % 16777216 % 256

/-- 40_encoder_units.md R71: the footer is four bytes 0xA5, every call, and nothing else changes. -/
def Obligations.FtrgenGivesSignature : Prop :=
  decode 0x0002 = .ok .ftrgen ∧
  ∀ s : State, s.fault = false →
    exec .ftrgen s =
      .next { s with
        response := some ⟨true, 0, .footer ⟨0xA5, 0xA5, 0xA5, 0xA5⟩⟩, transfer := none }

/-- 41_reader_units.md R80: the two fields of a header; bytes 2 to 4 do not enter. -/
def Obligations.HdrdecExtractsFields : Prop :=
  decode 0x0003 = .ok .hdrdec ∧
  ∀ s : State, s.fault = false →
    ∃ (flen : BitVec 16) (ftime : BitVec 24),
      exec .hdrdec s =
        .next { s with response := some ⟨true, 0, .fields flen ftime⟩, transfer := none } ∧
      flen.toNat = s.ops.h.b0.toNat * 256 + s.ops.h.b1.toNat ∧
      ftime.toNat = s.ops.h.b5.toNat * 65536 + s.ops.h.b6.toNat * 256 + s.ops.h.b7.toNat

/-- 41_reader_units.md R81: the size check, equality passes. -/
def Obligations.SzchkComparesUnsigned : Prop :=
  decode 0x0004 = .ok .szchk ∧
  ∀ s : State, s.fault = false →
    ∃ ok : Bool,
      exec .szchk s =
        .next { s with response := some ⟨true, 0, .sizeOk ok⟩, transfer := none } ∧
      (ok = true ↔ s.ops.flen.toNat ≤ s.ops.avail)

/-- 41_reader_units.md R82: the payload length, and under with no value fixed below 12. That the undefined
plen is a free value, and that it takes one number of the model's own counter, is the model's choice, log
entries 15 and 20; nothing else changes. -/
def Obligations.PlenSubtractsOverhead : Prop :=
  decode 0x0005 = .ok .plen ∧
  ∀ s : State, s.fault = false →
    (12 ≤ s.ops.flen.toNat → ∃ plen : BitVec 16,
      exec .plen s =
        .next { s with response := some ⟨true, 0, .length false plen⟩, transfer := none } ∧
      plen.toNat = s.ops.flen.toNat - 12) ∧
    (s.ops.flen.toNat < 12 → ∃ plen : BitVec 16,
      exec .plen s =
        .next { s with
          response := some ⟨true, 0, .length true plen⟩, transfer := none, tick := s.tick + 1 })

/-- 41_reader_units.md R83: valid exactly when all four bytes are 0xA5. -/
def Obligations.FtrchkChecksEachByte : Prop :=
  decode 0x0006 = .ok .ftrchk ∧
  ∀ s : State, s.fault = false →
    ∃ valid : Bool,
      exec .ftrchk s =
        .next { s with response := some ⟨true, 0, .footerValid valid⟩, transfer := none } ∧
      (valid = true ↔
        s.ops.f.b0 = 0xA5 ∧ s.ops.f.b1 = 0xA5 ∧ s.ops.f.b2 = 0xA5 ∧ s.ops.f.b3 = 0xA5)

/-- 41_reader_units.md R84: equality of two 8-bit patterns. -/
def Obligations.CatchkComparesPatterns : Prop :=
  decode 0x0007 = .ok .catchk ∧
  ∀ s : State, s.fault = false →
    ∃ isMatch : Bool,
      exec .catchk s =
        .next { s with response := some ⟨true, 0, .categoryMatch isMatch⟩, transfer := none } ∧
      (isMatch = true ↔ s.ops.p0 = s.ops.cat)

/-- 41_reader_units.md R85: the five reader units read no state but their operands and write none. The
plen of a length below 12 has no value, so there two runs need not agree. -/
def Obligations.ReaderUnitsArePure : Prop :=
  ∀ (i : Instr) (s s' : State),
    i ∈ [Instr.hdrdec, .szchk, .plen, .ftrchk, .catchk] →
    s.fault = false → s'.fault = false → s'.ops = s.ops →
    ∃ (t t' : State) (a a' : Response),
      exec i s = .next t ∧ exec i s' = .next t' ∧
      t.response = some a ∧ t'.response = some a' ∧ a.present = true ∧ a.cause = 0 ∧
      (¬ (i = .plen ∧ s.ops.flen.toNat < 12) → a' = a) ∧
      t.counters = s.counters ∧ t.fault = s.fault ∧ t.fcause = s.fcause ∧
      t.scratch = s.scratch ∧ t.source = s.source ∧ t.ops = s.ops ∧ t.pending = s.pending ∧
      t.cw = s.cw

/-- The inverse laws, an inference the spec marks as its own (the paragraph after FTRGEN's rule in
40_encoder_units.md, and FTRGEN's corner cases): HDRDEC of what HDRENC answers gives back length and time,
PLEN of that length the payload's length for 0 to 65523 bytes, and FTRCHK accepts what FTRGEN answers. -/
def Obligations.HeaderUnitsAreInverse : Prop :=
  ∀ s : State, s.fault = false →
    (∃ (t : State) (h : Bytes8),
      exec .hdrenc s = .next t ∧ t.response = some ⟨true, 0, .header h⟩ ∧
      ∀ s' : State, s'.fault = false → s'.ops.h = h →
        ∃ (t' : State) (flen : BitVec 16) (ftime : BitVec 24),
          exec .hdrdec s' = .next t' ∧ t'.response = some ⟨true, 0, .fields flen ftime⟩ ∧
          flen.toNat = (12 + s.ops.n) % 65536 ∧ ftime.toNat = s.ops.t % 16777216 ∧
          (s.ops.n ≤ 65523 → ∀ s'' : State, s''.fault = false → s''.ops.flen = flen →
            ∃ (t'' : State) (plen : BitVec 16),
              exec .plen s'' = .next t'' ∧ t''.response = some ⟨true, 0, .length false plen⟩ ∧
              plen.toNat = s.ops.n)) ∧
    (∃ (t : State) (f : Bytes4),
      exec .ftrgen s = .next t ∧ t.response = some ⟨true, 0, .footer f⟩ ∧
      ∀ s' : State, s'.fault = false → s'.ops.f = f →
        ∃ t' : State, exec .ftrchk s' = .next t' ∧ t'.response = some ⟨true, 0, .footerValid true⟩)

/-! ## ENCODE -/

/-- 42_frame_operations.md R90: an absent or empty payload gives none; any other gives header, payload
and footer, with EHDR and EFTR written and nothing else changed. The header is the one HDRENC answers for
the payload's length and the clock's draw. -/
def Obligations.EncodeWrapsPayload : Prop :=
  decode 0x0008 = .ok .encode ∧
  (∀ s : State, s.fault = false →
    exec .hdrenc s =
      .next { s with
        response := some ⟨true, 0, .header (encodeHeader s.ops.n s.ops.t)⟩, transfer := none }) ∧
  ∀ s : State, s.fault = false →
    (s.ops.pPresent = false ∨ s.ops.p.length = 0 →
      exec .encode s =
        .next { s with response := some ⟨false, 1, .absent⟩, transfer := none }) ∧
    (s.ops.pPresent = true → 1 ≤ s.ops.p.length →
      exec .encode s =
        .next { s with
          scratch := { s.scratch with
            ehdr := encodeHeader s.ops.p.length s.ops.now, eftr := ⟨0xA5, 0xA5, 0xA5, 0xA5⟩ }
          response := some ⟨true, 0, .frame
            ((encodeHeader s.ops.p.length s.ops.now).toList ++ s.ops.p ++ [0xA5, 0xA5, 0xA5, 0xA5])⟩
          transfer := none })

/-- 42_frame_operations.md R95: what holds of every frame ENCODE returns. -/
def Obligations.EncodedFrameHasItsLayout : Prop :=
  ∀ s : State, s.fault = false → s.ops.pPresent = true → 1 ≤ s.ops.p.length →
    ∃ (t : State) (out : List Byte),
      exec .encode s = .next t ∧ t.response = some ⟨true, 0, .frame out⟩ ∧
      out.length = 12 + s.ops.p.length ∧
      out[2]? = some 0 ∧ out[3]? = some 0 ∧ out[4]? = some 0 ∧
      (out.drop 8).take s.ops.p.length = s.ops.p ∧
      out.drop (8 + s.ops.p.length) = [165, 165, 165, 165] ∧
      (∃ b0 b1 : Byte, out[0]? = some b0 ∧ out[1]? = some b1 ∧
        b0.toNat * 256 + b1.toNat = (12 + s.ops.p.length) % 65536) ∧
      (∃ b5 b6 b7 : Byte, out[5]? = some b5 ∧ out[6]? = some b6 ∧ out[7]? = some b7 ∧
        b5.toNat * 65536 + b6.toNat * 256 + b7.toNat = s.ops.now % 16777216)

/-- Two encodings of one payload differ at most in bytes 5 to 7, and are equal when their time counts
agree modulo 2^24 (42_frame_operations.md R90 corner cases, 40_encoder_units.md R73). -/
def Obligations.FramesDifferOnlyInTime : Prop :=
  ∀ s s' : State, s.fault = false → s'.fault = false →
    s.ops.pPresent = true → s'.ops.pPresent = true → 1 ≤ s.ops.p.length → s'.ops.p = s.ops.p →
    ∃ (t t' : State) (out out' : List Byte),
      exec .encode s = .next t ∧ exec .encode s' = .next t' ∧
      t.response = some ⟨true, 0, .frame out⟩ ∧ t'.response = some ⟨true, 0, .frame out'⟩ ∧
      (∀ k, k ≠ 5 → k ≠ 6 → k ≠ 7 → out'[k]? = out[k]?) ∧
      (out' = out ↔ s'.ops.now % 16777216 = s.ops.now % 16777216)

/-! ## READ and READC -/

/-- 20_memory.md R38: SrcRead(k) returns and consumes the next k bytes, or as many as there are, SrcAvail()
returns how many there are and consumes none; R36: SrcRead(0) does not touch any source. -/
def Obligations.SourceGivesBytesFromCursor : Prop :=
  (∀ (s : State) (k : Nat), s.PlainSource →
    srcRead k s =
      (.answer ((s.source.bytes.drop s.source.pos).take k),
        { s with source := { s.source with
          pos := s.source.pos + min k (s.source.bytes.length - s.source.pos) } }) ∧
    srcAvail s = (.answer (s.source.bytes.length - s.source.pos), s)) ∧
  ∀ s : State, srcRead 0 s = (.answer [], s)

/-- 42_frame_operations.md R91 on a sound frame at the cursor, however the source answers so long as it
gives the frame: the payload is returned, framesRead goes up by 1, the frame is consumed, RHDR and RFTR
hold its header and footer, nothing else changes. -/
def Obligations.ReadReturnsSoundFrame : Prop :=
  ∀ (s : State) (hdr : Bytes8) (body rest : List Byte) (later : List Answer),
    s.fault = false → s.FrameArrives hdr body ⟨0xA5, 0xA5, 0xA5, 0xA5⟩ rest later →
    s.counters.framesRead ≠ 2 ^ s.cw - 1 →
    exec .read s =
      .next { s with
        counters := { s.counters with framesRead := s.counters.framesRead + 1 }
        scratch := { s.scratch with rhdr := hdr, rftr := ⟨0xA5, 0xA5, 0xA5, 0xA5⟩ }
        source := { s.source with pos := s.source.pos + (12 + body.length), answers := later }
        response := some ⟨true, 0, .payload body⟩
        transfer := none }

/-- 42_frame_operations.md R92 on a sound frame with a non-empty payload: a matching category returns
the payload, another returns none; both count the frame as read and consume it. -/
def Obligations.ReadcFiltersByCategory : Prop :=
  ∀ (s : State) (cat : Byte) (hdr : Bytes8) (p0 : Byte) (tail rest : List Byte) (later : List Answer),
    s.fault = false → s.FrameArrives hdr (p0 :: tail) ⟨0xA5, 0xA5, 0xA5, 0xA5⟩ rest later →
    s.counters.framesRead ≠ 2 ^ s.cw - 1 →
    exec (.readc cat) s =
      .next { s with
        counters := { s.counters with framesRead := s.counters.framesRead + 1 }
        scratch := { s.scratch with rhdr := hdr, rftr := ⟨0xA5, 0xA5, 0xA5, 0xA5⟩ }
        source := { s.source with pos := s.source.pos + (13 + tail.length), answers := later }
        response := some (if p0 = cat then ⟨true, 0, .payload (p0 :: tail)⟩ else ⟨false, 5, .absent⟩)
        transfer := none }

/-- 42_frame_operations.md R98: a declared length of 12. READ returns a present, empty payload and
counts the frame; READC faults with EMPTY_CATEGORY. -/
def Obligations.DeclaredTwelveIsEmptyPayload : Prop :=
  ∀ (s : State) (hdr : Bytes8) (rest : List Byte) (later : List Answer),
    s.fault = false → s.FrameArrives hdr [] ⟨0xA5, 0xA5, 0xA5, 0xA5⟩ rest later →
    (s.counters.framesRead ≠ 2 ^ s.cw - 1 → ∃ t,
      exec .read s = .next t ∧ t.response = some ⟨true, 0, .payload []⟩ ∧
      t.counters = { s.counters with framesRead := s.counters.framesRead + 1 } ∧
      t.source.pos = s.source.pos + 12) ∧
    (∀ cat : Byte, ∃ (t : State) (a : Response),
      exec (.readc cat) s = .next t ∧ t.fault = true ∧ t.fcause = 11 ∧
      t.response = some a ∧ a.cause = 11)

/-- 42_frame_operations.md R91 step 1, R94, R97: the header read is answered with fewer than 8 bytes,
because fewer are left or because the source gives fewer (20_memory.md R36). The bytes given are
consumed. -/
def Obligations.ShortHeaderIsSizeDrop : Prop :=
  ∀ (s : State) (filter : Option Byte) (given : Nat) (later : List Answer),
    s.fault = false → Answered s.source.answers s.upcoming.length given later → given < 8 →
    s.counters.framesDropped ≠ 2 ^ s.cw - 1 → s.counters.droppedForInvalidSize ≠ 2 ^ s.cw - 1 →
    exec (readCommand filter) s =
      .next { s with
        counters := { s.counters with
          framesDropped := s.counters.framesDropped + 1
          droppedForInvalidSize := s.counters.droppedForInvalidSize + 1 }
        source := { s.source with pos := s.source.pos + given, answers := later }
        response := some ⟨false, 2, .absent⟩
        transfer := none }

/-- 42_frame_operations.md R91 step 3, R94, R97: the declared length exceeds the header's 8 bytes and what
SrcAvail() reports, be that all the stream holds or less (20_memory.md R37, 70_reset_and_hazards.md R139).
Only the header is consumed; the category is not looked at. -/
def Obligations.OversizeLengthIsSizeDrop : Prop :=
  ∀ (s : State) (filter : Option Byte) (hdr : Bytes8) (rest : List Byte) (avail : Nat)
    (later : List Answer),
    s.fault = false → s.SizeKnown hdr rest avail later → 8 + avail < declared hdr →
    s.counters.framesDropped ≠ 2 ^ s.cw - 1 → s.counters.droppedForInvalidSize ≠ 2 ^ s.cw - 1 →
    exec (readCommand filter) s =
      .next { s with
        counters := { s.counters with
          framesDropped := s.counters.framesDropped + 1
          droppedForInvalidSize := s.counters.droppedForInvalidSize + 1 }
        scratch := { s.scratch with rhdr := hdr }
        source := { s.source with pos := s.source.pos + 8, answers := later }
        response := some ⟨false, 2, .absent⟩
        transfer := none }

/-- 42_frame_operations.md R91 step 6, R97: a footer byte is not 165. The whole declared frame is
consumed, one drop is counted however many bytes are wrong, and the category is not looked at. -/
def Obligations.BadFooterIsFooterDrop : Prop :=
  ∀ (s : State) (filter : Option Byte) (hdr : Bytes8) (body : List Byte) (ftr : Bytes4)
    (rest : List Byte) (later : List Answer),
    s.fault = false → s.FrameArrives hdr body ftr rest later →
    ¬ (ftr.b0 = 165 ∧ ftr.b1 = 165 ∧ ftr.b2 = 165 ∧ ftr.b3 = 165) →
    s.counters.framesDropped ≠ 2 ^ s.cw - 1 → s.counters.droppedForInvalidFooter ≠ 2 ^ s.cw - 1 →
    exec (readCommand filter) s =
      .next { s with
        counters := { s.counters with
          framesDropped := s.counters.framesDropped + 1
          droppedForInvalidFooter := s.counters.droppedForInvalidFooter + 1 }
        scratch := { s.scratch with rhdr := hdr, rftr := ftr }
        source := { s.source with pos := s.source.pos + (12 + body.length), answers := later }
        response := some ⟨false, 3, .absent⟩
        transfer := none }

/-- 60_exceptions.md R113 checks 4 and 5: a declared length below 12 that passes the size check is the
fault LEN_UNDERFLOW. -/
def Obligations.ShortDeclaredLengthFaults : Prop :=
  ∀ (s : State) (filter : Option Byte) (hdr : Bytes8) (rest : List Byte) (avail : Nat)
    (later : List Answer),
    s.fault = false → s.SizeKnown hdr rest avail later →
    declared hdr < 12 → declared hdr ≤ 8 + avail →
    ∃ (t : State) (a : Response), exec (readCommand filter) s = .next t ∧
      t.fault = true ∧ t.fcause = 9 ∧ t.response = some a ∧ a.cause = 9

/-- 10_state.md R16: a read that would count in a full counter faults with CNT_OVERFLOW, for each counter
and each outcome that moves it (that of a stream error, which moves one only where IOERR_INC_DROPPED is
true, is StreamErrorAtFullCounter), however the source answers. -/
def Obligations.FullCounterFaults : Prop :=
  ∀ (s : State) (filter : Option Byte), s.fault = false →
    ((∃ (given : Nat) (later : List Answer),
        Answered s.source.answers s.upcoming.length given later ∧ given < 8 ∧
        (s.counters.framesDropped = 2 ^ s.cw - 1 ∨
          s.counters.droppedForInvalidSize = 2 ^ s.cw - 1)) ∨
      (∃ (hdr : Bytes8) (rest : List Byte) (avail : Nat) (later : List Answer),
        s.SizeKnown hdr rest avail later ∧ 8 + avail < declared hdr ∧
        (s.counters.framesDropped = 2 ^ s.cw - 1 ∨
          s.counters.droppedForInvalidSize = 2 ^ s.cw - 1)) ∨
      (∃ (hdr : Bytes8) (body : List Byte) (ftr : Bytes4) (rest : List Byte) (later : List Answer),
        s.FrameArrives hdr body ftr rest later ∧
        ((ftr ≠ ⟨165, 165, 165, 165⟩ ∧ (s.counters.framesDropped = 2 ^ s.cw - 1 ∨
            s.counters.droppedForInvalidFooter = 2 ^ s.cw - 1)) ∨
          (ftr = ⟨165, 165, 165, 165⟩ ∧ (filter = none ∨ body ≠ []) ∧
            s.counters.framesRead = 2 ^ s.cw - 1)))) →
    ∃ (t : State) (a : Response), exec (readCommand filter) s = .next t ∧
      t.fault = true ∧ t.fcause = 10 ∧ t.response = some a ∧ a.cause = 10

/-- A stream error at any of the four accesses: none with cause IO_ERROR, the two sub-counters and
framesRead unchanged, framesDropped up by 1 exactly if IOERR_INC_DROPPED; the cursor is anywhere in the
stream, which bound is the model's choice, log entry 8 (60_exceptions.md R110, 42_frame_operations.md R94,
R97). That framesDropped is not full is asked only where IOERR_INC_DROPPED. -/
def Obligations.StreamErrorEndsRead : Prop :=
  ∀ (s : State) (filter : Option Byte) (later : List Answer),
    s.fault = false → s.MeetsErr later →
    (Config.ioErrIncDropped = true → s.counters.framesDropped ≠ 2 ^ s.cw - 1) →
    ∃ t, exec (readCommand filter) s = .next t ∧
      t.response = some ⟨false, 4, .absent⟩ ∧ t.fault = false ∧ t.fcause = s.fcause ∧
      t.counters = { s.counters with
        framesDropped := s.counters.framesDropped + (if Config.ioErrIncDropped = true then 1 else 0) } ∧
      t.source.bytes = s.source.bytes ∧ t.source.InRange ∧ t.source.answers = later ∧
      t.transfer = none ∧ t.ops = s.ops ∧ t.pending = s.pending ∧ t.cw = s.cw ∧
      t.scratch.ehdr = s.scratch.ehdr ∧ t.scratch.eftr = s.scratch.eftr

/-- A stream error at any of the four accesses with framesDropped full, for either value of
IOERR_INC_DROPPED: where it is true the inc at label IOERR of 42_frame_operations.md R91 is the fault
CNT_OVERFLOW (10_state.md R16, 60_exceptions.md R112); where it is false no counter moves and the read ends
with IO_ERROR, the fault record as it was. -/
def Obligations.StreamErrorAtFullCounter : Prop :=
  ∀ (s : State) (filter : Option Byte) (later : List Answer),
    s.fault = false → s.MeetsErr later → s.counters.framesDropped = 2 ^ s.cw - 1 →
    ∃ (t : State) (a : Response), exec (readCommand filter) s = .next t ∧ t.response = some a ∧
      (if Config.ioErrIncDropped = true then t.fault = true ∧ t.fcause = 10 ∧ a.cause = 10
       else a = ⟨false, 4, .absent⟩ ∧ t.fault = false ∧ t.fcause = s.fcause ∧
         t.counters = s.counters)

/-- A payload or footer read that comes back short after the size check passed is the fault SHORT_BODY
(60_exceptions.md R112, R113 checks 6 and 7). -/
def Obligations.ShortBodyFaults : Prop :=
  ∀ (s : State) (filter : Option Byte), s.fault = false → s.MeetsShortBody →
    ∃ (t : State) (a : Response), exec (readCommand filter) s = .next t ∧
      t.fault = true ∧ t.fcause = 12 ∧ t.response = some a ∧ a.cause = 12

/-- 20_memory.md R38: on the plain source a read never meets a stream error, never waits, and never
comes back short after the size check. -/
def Obligations.PlainSourceNeverFailsRead : Prop :=
  ∀ (s : State) (filter : Option Byte), s.fault = false → s.PlainSource →
    ∃ (t : State) (a : Response), exec (readCommand filter) s = .next t ∧
      t.transfer = none ∧ t.response = some a ∧ a.cause ≠ 4 ∧ a.cause ≠ 12 ∧
      (t.fault = true → t.fcause ≠ 12)

/-- 42_frame_operations.md R94, the outcome table: every ended READ or READC that did not fault has one
of the documented outcomes, with that row's response and that row's movement of the four counters. -/
def Obligations.OutcomeDecidesCounters : Prop :=
  ∀ (s t : State) (filter : Option Byte),
    exec (readCommand filter) s = .next t → s.fault = false → t.fault = false → t.transfer = none →
    (∃ body, t.response = some ⟨true, 0, .payload body⟩ ∧
      (∀ cat, filter = some cat → body.head? = some cat) ∧
      t.counters = { s.counters with framesRead := s.counters.framesRead + 1 }) ∨
    (filter ≠ none ∧ t.response = some ⟨false, 5, .absent⟩ ∧
      t.counters = { s.counters with framesRead := s.counters.framesRead + 1 }) ∨
    (t.response = some ⟨false, 2, .absent⟩ ∧
      t.counters = { s.counters with
        framesDropped := s.counters.framesDropped + 1
        droppedForInvalidSize := s.counters.droppedForInvalidSize + 1 }) ∨
    (t.response = some ⟨false, 3, .absent⟩ ∧
      t.counters = { s.counters with
        framesDropped := s.counters.framesDropped + 1
        droppedForInvalidFooter := s.counters.droppedForInvalidFooter + 1 }) ∨
    (t.response = some ⟨false, 4, .absent⟩ ∧
      t.counters = { s.counters with
        framesDropped := s.counters.framesDropped + (if Config.ioErrIncDropped = true then 1 else 0) })

/-- 42_frame_operations.md R97: how many bytes each outcome consumes under the plain source. -/
def Obligations.OutcomeDecidesCursor : Prop :=
  ∀ (s t : State) (filter : Option Byte) (a : Response),
    exec (readCommand filter) s = .next t → s.fault = false → t.fault = false → s.PlainSource →
    t.response = some a →
    t.source.bytes = s.source.bytes ∧
    ((a.cause = 2 ∧ s.upcoming.length < 8 ∧
        t.source.pos = s.source.pos + s.upcoming.length) ∨
      ∃ (hdr : Bytes8) (rest : List Byte), s.upcoming = hdr.toList ++ rest ∧
        ((a.cause = 2 ∧ 8 + rest.length < hdr.b0.toNat * 256 + hdr.b1.toNat ∧
            t.source.pos = s.source.pos + 8) ∨
          ((a.cause = 0 ∨ a.cause = 5 ∨ a.cause = 3) ∧
            t.source.pos = s.source.pos + (hdr.b0.toNat * 256 + hdr.b1.toNat))))

/-- The frame of READ and READC: with no fault taken they leave the fault record, the operand ports,
the host's coming commands, the counter width, the encoder's scratch and the stream's bytes. -/
def Obligations.ReadLeavesTheRest : Prop :=
  ∀ (s t : State) (filter : Option Byte),
    exec (readCommand filter) s = .next t → s.fault = false → t.fault = false →
    t.fcause = s.fcause ∧ t.ops = s.ops ∧ t.pending = s.pending ∧ t.cw = s.cw ∧
    t.scratch.ehdr = s.scratch.ehdr ∧ t.scratch.eftr = s.scratch.eftr ∧
    t.source.bytes = s.source.bytes

/-- 30_encoding.md R52: ENCODE writes 0 to the reserved bytes 2 to 4, and a reader ignores them: two
streams that differ only in the reserved bytes of the header at the cursor give the same response,
counters, fault record and cursor. Where the outcome leaves one of these undefined (a fault, the cursor
after a stream error), that the two runs agree is the model's choice, log entry 20: both draw the same free
value. -/
def Obligations.ReservedBytesAreZeroAndIgnored : Prop :=
  (∀ s : State, s.fault = false → s.ops.pPresent = true → 1 ≤ s.ops.p.length →
    ∃ (t : State) (out : List Byte),
      exec .encode s = .next t ∧ t.response = some ⟨true, 0, .frame out⟩ ∧
      out[2]? = some 0 ∧ out[3]? = some 0 ∧ out[4]? = some 0) ∧
  ∀ (s s' : State) (filter : Option Byte) (hdr hdr' : Bytes8) (before rest : List Byte),
    s.fault = false →
    s.source.bytes = before ++ hdr.toList ++ rest → s.source.pos = before.length →
    hdr' = { hdr with b2 := hdr'.b2, b3 := hdr'.b3, b4 := hdr'.b4 } →
    s' = { s with source := { s.source with bytes := before ++ hdr'.toList ++ rest } } →
    ∃ t t', exec (readCommand filter) s = .next t ∧ exec (readCommand filter) s' = .next t' ∧
      t'.response = t.response ∧ t'.counters = t.counters ∧ t'.fault = t.fault ∧
      t'.fcause = t.fcause ∧ t'.source.pos = t.source.pos ∧ t'.transfer = t.transfer

/-- The round trip (42_frame_operations.md, Laws of the frame commands; its bound of 65523 bytes is
90_conflicts.md C5 and marked by the spec as derived): the frame ENCODE builds of 1 to 65523 bytes,
whatever the time count, is read back as that payload by any reader whose source is exactly that frame. -/
def Obligations.RoundTripReturnsPayload : Prop :=
  ∀ e : State, e.fault = false → e.ops.pPresent = true → 1 ≤ e.ops.p.length →
    e.ops.p.length ≤ 65523 →
    ∃ (u : State) (out : List Byte),
      exec .encode e = .next u ∧ u.response = some ⟨true, 0, .frame out⟩ ∧
      out.length = 12 + e.ops.p.length ∧
      ∀ r : State, r.fault = false → r.source = ⟨out, 0, []⟩ →
        r.counters.framesRead ≠ 2 ^ r.cw - 1 →
        ∃ t, exec .read r = .next t ∧ t.response = some ⟨true, 0, .payload e.ops.p⟩ ∧
          t.counters = { r.counters with framesRead := r.counters.framesRead + 1 } ∧
          t.source.pos = out.length

/-- 70_reset_and_hazards.md R133, 42_frame_operations.md R93: a payload above 65523 bytes is encoded
whole, but no read of that frame answers with it: the length field has wrapped. -/
def Obligations.OversizePayloadIsNotReturned : Prop :=
  ∀ e : State, e.fault = false → e.ops.pPresent = true → 65524 ≤ e.ops.p.length →
    ∃ (u : State) (out : List Byte),
      exec .encode e = .next u ∧ u.response = some ⟨true, 0, .frame out⟩ ∧
      out.length = 12 + e.ops.p.length ∧
      ∀ r : State, r.fault = false → r.source = ⟨out, 0, []⟩ →
        ∃ t, exec .read r = .next t ∧ t.response ≠ some ⟨true, 0, .payload e.ops.p⟩

/-! ## Waiting for the source -/

/-- 60_exceptions.md R121: a read whose source gives no answer changes no counter, delivers no response
and accepts no further command. R121 calls this stuck, with no enabled step; that a step answers the waiting
state as it is, is the model's choice, log entry 11. -/
def Obligations.StalledReadWaits : Prop :=
  (∀ (s w : State) (i : Instr) (tr : Transfer),
    exec i s = .next w → s.fault = false → w.transfer = some tr →
    step w = .next w ∧ w.counters = s.counters ∧ w.fault = false ∧ w.response = none ∧
    w.pending = s.pending ∧ s.source.pos ≤ w.source.pos) ∧
  (∀ (s : State) (filter : Option Byte) (later : List Answer),
    s.fault = false → s.source.answers = .stall :: later →
    exec (readCommand filter) s =
      .next { s with transfer := some ⟨filter, .header⟩, response := none })

/-- 60_exceptions.md R121, "Only the source can lift it, by answering": once the source answers, a
waiting read goes on and comes to the same state as if the source had answered at once. The waiting transfer
and the answering event are the model's choice, log entry 11; that the two runs agree where the outcome is
undefined (a fault, the cursor after a stream error) is log entry 20: both draw the same free value. -/
def Obligations.AnsweredReadResumes : Prop :=
  ∀ (s w : State) (filter : Option Byte),
    exec (readCommand filter) s = .next w → s.fault = false → w.transfer ≠ none →
    step w.sourceAnswers =
      exec (readCommand filter)
        { s with source := { s.source with answers := s.source.answers.erase .stall } }

/-! ## CNTRD and the fault record -/

/-- 43_counter_access.md R100 with FAULT = 0: the register's value, nothing changed; the status word is
FCAUSE in bits 7:4 and FAULT in bit 0; 5 to 7 fault. -/
def Obligations.CntrdReadsRegister : Prop :=
  (∀ idx : BitVec 3, decode (BitVec.ofNat 16 (idx.toNat * 256 + 0x000B)) = .ok (.cntrd idx)) ∧
  ∀ s : State, s.fault = false →
    exec (.cntrd 0) s =
      .next { s with response := some ⟨true, 0, .value s.counters.framesRead⟩, transfer := none } ∧
    exec (.cntrd 1) s =
      .next { s with response := some ⟨true, 0, .value s.counters.framesDropped⟩, transfer := none } ∧
    exec (.cntrd 2) s =
      .next { s with
        response := some ⟨true, 0, .value s.counters.droppedForInvalidSize⟩, transfer := none } ∧
    exec (.cntrd 3) s =
      .next { s with
        response := some ⟨true, 0, .value s.counters.droppedForInvalidFooter⟩, transfer := none } ∧
    exec (.cntrd 4) s =
      .next { s with
        response := some ⟨true, 0, .value (s.fcause.toNat * 16 + s.fault.toNat)⟩
        transfer := none } ∧
    (∀ idx : BitVec 3, 5 ≤ idx.toNat → ∃ (t : State) (a : Response),
      exec (.cntrd idx) s = .next t ∧ t.fault = true ∧ t.fcause = 8 ∧
      t.response = some a ∧ a.cause = 8)

/-- 10_state.md R18, 92_eei_decisions.md D30: while FAULT = 1 index 4 returns the fault record, 0 to 3
return some value of CW bits, 5 to 7 fault and leave the record; nothing is written but by the fault. -/
def Obligations.CntrdWorksAfterFault : Prop :=
  ∀ s : State, s.fault = true →
    exec (.cntrd 4) s =
      .next { s with response := some ⟨true, 0, .value (s.fcause.toNat * 16 + 1)⟩, transfer := none } ∧
    (∀ idx : BitVec 3, idx.toNat ≤ 3 → ∃ v : Nat, v < 2 ^ s.cw ∧
      exec (.cntrd idx) s =
        .next { s with
          response := some ⟨true, 0, .value v⟩, transfer := none, tick := s.tick + 1 }) ∧
    (∀ idx : BitVec 3, 5 ≤ idx.toNat → ∃ (t : State) (a : Response),
      exec (.cntrd idx) s = .next t ∧ t.fault = true ∧ t.fcause = s.fcause ∧
      t.response = some a ∧ a.cause = 8)

/-- A command other than CNTRD while FAULT = 1 runs to a response of which nothing is said; the fault
record and the ports stay (10_state.md R18; the model's choice, log entry 13). -/
def Obligations.CommandAfterFaultIsUndefined : Prop :=
  ∀ (i : Instr) (s : State), s.fault = true → (∀ idx, i ≠ .cntrd idx) →
    ∃ (t : State) (a : Response), exec i s = .next t ∧ t.response = some a ∧
      t.fault = true ∧ t.fcause = s.fcause ∧ t.transfer = none ∧ t.ops = s.ops ∧
      t.pending = s.pending ∧ t.cw = s.cw ∧ t.counters.Fits s.cw ∧
      t.source.bytes = s.source.bytes ∧ t.source.InRange

/-- 10_state.md R18: a step that faults records its cause if FAULT was 0, and no step clears or changes
the record. -/
def Obligations.FaultRecordIsSticky : Prop :=
  ∀ s t : State, step s = .next t →
    (s.fault = true → t.fault = true ∧ t.fcause = s.fcause) ∧
    (s.fault = false → t.fault = true →
      ∃ a, t.response = some a ∧ t.fcause = a.cause ∧
        (a.cause = 8 ∨ a.cause = 9 ∨ a.cause = 10 ∨ a.cause = 11 ∨ a.cause = 12)) ∧
    (s.fault = false → t.fault = false → t.fcause = s.fcause)

/-! ## The whole machine -/

/-- 10_state.md R15: no step decreases a counter or moves one by more than 1, as long as no fault has
happened. -/
def Obligations.CountersOnlyGoUp : Prop :=
  ∀ s t : State, step s = .next t → t.fault = false →
    (t.counters.framesRead = s.counters.framesRead ∨
      t.counters.framesRead = s.counters.framesRead + 1) ∧
    (t.counters.framesDropped = s.counters.framesDropped ∨
      t.counters.framesDropped = s.counters.framesDropped + 1) ∧
    (t.counters.droppedForInvalidSize = s.counters.droppedForInvalidSize ∨
      t.counters.droppedForInvalidSize = s.counters.droppedForInvalidSize + 1) ∧
    (t.counters.droppedForInvalidFooter = s.counters.droppedForInvalidFooter ∨
      t.counters.droppedForInvalidFooter = s.counters.droppedForInvalidFooter + 1)

/-- Only READ and READC move a counter, the cursor or the reader's scratch: every other command that
does not fault leaves them, the fault record, the ports and the environment (10_state.md R15, R10). -/
def Obligations.OtherCommandsLeaveReader : Prop :=
  ∀ (i : Instr) (s t : State), exec i s = .next t → s.fault = false → t.fault = false →
    i ≠ .read → (∀ cat, i ≠ .readc cat) →
    t.counters = s.counters ∧ t.source = s.source ∧ t.scratch.rhdr = s.scratch.rhdr ∧
    t.scratch.rftr = s.scratch.rftr ∧ t.fcause = s.fcause ∧ t.ops = s.ops ∧
    t.pending = s.pending ∧ t.cw = s.cw ∧ t.transfer = none ∧
    (i ≠ .encode → t.scratch = s.scratch) ∧ (i ≠ .plen → t.tick = s.tick)

/-- 00_scope.md R2: the encoder half reads no reader state: with equal operands its commands answer
alike, whatever the counters, the reader's scratch, and the source. -/
def Obligations.EncoderHalfIgnoresReaderHalf : Prop :=
  ∀ (i : Instr) (s s' : State), i ∈ [Instr.hdrenc, .ftrgen, .encode] →
    s.fault = false → s'.fault = false → s'.ops = s.ops →
    ∃ t t', exec i s = .next t ∧ exec i s' = .next t' ∧ t'.response = t.response ∧
      t.counters = s.counters ∧ t.source = s.source ∧ t.scratch.rhdr = s.scratch.rhdr ∧
      t.scratch.rftr = s.scratch.rftr

/-- 00_scope.md R2, 10_state.md R19: the reader half reads no encoder scratch and no stale scratch of its
own: a read answers alike whatever the four scratch registers hold. Where the outcome is undefined (a fault,
the cursor after a stream error), that the two runs agree is the model's choice, log entry 20: both draw the
same free value. -/
def Obligations.ReadObservesNoStaleScratch : Prop :=
  ∀ (s : State) (x : Scratch) (filter : Option Byte), s.fault = false →
    ∃ t t', exec (readCommand filter) s = .next t ∧
      exec (readCommand filter) { s with scratch := x } = .next t' ∧
      t'.response = t.response ∧ t'.counters = t.counters ∧ t'.source = t.source ∧
      t'.fault = t.fault ∧ t'.fcause = t.fcause ∧ t'.transfer = t.transfer

/-- 10_state.md R15: the counters decide nothing: two runs of a read that differ only in the counters,
neither of which faults, answer alike, consume alike and move the counters alike. That the two runs agree
on the undefined cursor after a stream error is the model's choice, log entry 20: both draw the same free
value. -/
def Obligations.CountersDecideNothing : Prop :=
  ∀ (s t t' : State) (c : Counters) (filter : Option Byte),
    exec (readCommand filter) s = .next t →
    exec (readCommand filter) { s with counters := c } = .next t' →
    s.fault = false → t.fault = false → t'.fault = false →
    t'.response = t.response ∧ t'.source = t.source ∧ t'.scratch = t.scratch ∧
    t'.transfer = t.transfer ∧
    t'.counters.framesRead + s.counters.framesRead = t.counters.framesRead + c.framesRead ∧
    t'.counters.framesDropped + s.counters.framesDropped =
      t.counters.framesDropped + c.framesDropped ∧
    t'.counters.droppedForInvalidSize + s.counters.droppedForInvalidSize =
      t.counters.droppedForInvalidSize + c.droppedForInvalidSize ∧
    t'.counters.droppedForInvalidFooter + s.counters.droppedForInvalidFooter =
      t.counters.droppedForInvalidFooter + c.droppedForInvalidFooter

/-- The invariant holds after reset. -/
def Obligations.ResetMeetsInvariant : Prop := State.reset.Inv

/-- Every step keeps the invariant: counters within CW bits, cursor within the stream, the fault record
legal, the drops covered by their reasons, a waiting command coherent. -/
def Obligations.StepKeepsInvariant : Prop :=
  ∀ s t : State, s.Inv → step s = .next t → t.Inv

/-- 10_state.md R25: after reset the drops are exactly the sum of their two reasons, and every step keeps
that, but for a stream I/O error where IOERR_INC_DROPPED is true, which adds 1 to framesDropped alone. -/
def Obligations.StepKeepsDropSum : Prop :=
  State.reset.DropsAddUp ∧
  ∀ s t : State, s.DropsAddUp → step s = .next t →
    (Config.ioErrIncDropped = true ∧ t.response = some ⟨false, 4, .absent⟩ ∧
      t.counters = { s.counters with framesDropped := s.counters.framesDropped + 1 }) ∨
    t.DropsAddUp

/-- 70_reset_and_hazards.md R136: after a size drop on the declared length the next read takes its
header 8 bytes further on, inside the refused frame. -/
def Obligations.DroppedFrameLosesBoundary : Prop :=
  ∀ (s t : State) (filter : Option Byte) (hdr : Bytes8) (rest : List Byte),
    s.fault = false → s.PlainSource → s.upcoming = hdr.toList ++ rest →
    8 + rest.length < hdr.b0.toNat * 256 + hdr.b1.toNat →
    exec (readCommand filter) s = .next t → t.fault = false →
    t.upcoming = rest ∧ t.PlainSource
end

