-- ==== Sys2Proof/Laws/State.lean ====
section
/-! SUPPORT. What each update of the state leaves in each field: one lemma per field per update, so that
no later proof unfolds a record update. -/

namespace Sys2Proof.Machine

variable (s : State)

@[simp] theorem State.setCounters_counters (c : Counters) :
    (s.setCounters c).counters = c := by rfl
@[simp] theorem State.setCounters_fault (c : Counters) :
    (s.setCounters c).fault = s.fault := by rfl
@[simp] theorem State.setCounters_fcause (c : Counters) :
    (s.setCounters c).fcause = s.fcause := by rfl
@[simp] theorem State.setCounters_scratch (c : Counters) :
    (s.setCounters c).scratch = s.scratch := by rfl
@[simp] theorem State.setCounters_transfer (c : Counters) :
    (s.setCounters c).transfer = s.transfer := by rfl
@[simp] theorem State.setCounters_ops (c : Counters) :
    (s.setCounters c).ops = s.ops := by rfl
@[simp] theorem State.setCounters_response (c : Counters) :
    (s.setCounters c).response = s.response := by rfl
@[simp] theorem State.setCounters_source (c : Counters) :
    (s.setCounters c).source = s.source := by rfl
@[simp] theorem State.setCounters_pending (c : Counters) :
    (s.setCounters c).pending = s.pending := by rfl
@[simp] theorem State.setCounters_cw (c : Counters) :
    (s.setCounters c).cw = s.cw := by rfl
@[simp] theorem State.setCounters_tick (c : Counters) :
    (s.setCounters c).tick = s.tick := by rfl

@[simp] theorem State.setScratch_counters (x : Scratch) :
    (s.setScratch x).counters = s.counters := by rfl
@[simp] theorem State.setScratch_fault (x : Scratch) :
    (s.setScratch x).fault = s.fault := by rfl
@[simp] theorem State.setScratch_fcause (x : Scratch) :
    (s.setScratch x).fcause = s.fcause := by rfl
@[simp] theorem State.setScratch_scratch (x : Scratch) :
    (s.setScratch x).scratch = x := by rfl
@[simp] theorem State.setScratch_transfer (x : Scratch) :
    (s.setScratch x).transfer = s.transfer := by rfl
@[simp] theorem State.setScratch_ops (x : Scratch) :
    (s.setScratch x).ops = s.ops := by rfl
@[simp] theorem State.setScratch_response (x : Scratch) :
    (s.setScratch x).response = s.response := by rfl
@[simp] theorem State.setScratch_source (x : Scratch) :
    (s.setScratch x).source = s.source := by rfl
@[simp] theorem State.setScratch_pending (x : Scratch) :
    (s.setScratch x).pending = s.pending := by rfl
@[simp] theorem State.setScratch_cw (x : Scratch) :
    (s.setScratch x).cw = s.cw := by rfl
@[simp] theorem State.setScratch_tick (x : Scratch) :
    (s.setScratch x).tick = s.tick := by rfl

@[simp] theorem State.setSource_counters (src : Source) :
    (s.setSource src).counters = s.counters := by rfl
@[simp] theorem State.setSource_fault (src : Source) :
    (s.setSource src).fault = s.fault := by rfl
@[simp] theorem State.setSource_fcause (src : Source) :
    (s.setSource src).fcause = s.fcause := by rfl
@[simp] theorem State.setSource_scratch (src : Source) :
    (s.setSource src).scratch = s.scratch := by rfl
@[simp] theorem State.setSource_transfer (src : Source) :
    (s.setSource src).transfer = s.transfer := by rfl
@[simp] theorem State.setSource_ops (src : Source) :
    (s.setSource src).ops = s.ops := by rfl
@[simp] theorem State.setSource_response (src : Source) :
    (s.setSource src).response = s.response := by rfl
@[simp] theorem State.setSource_source (src : Source) :
    (s.setSource src).source = src := by rfl
@[simp] theorem State.setSource_pending (src : Source) :
    (s.setSource src).pending = s.pending := by rfl
@[simp] theorem State.setSource_cw (src : Source) :
    (s.setSource src).cw = s.cw := by rfl
@[simp] theorem State.setSource_tick (src : Source) :
    (s.setSource src).tick = s.tick := by rfl

@[simp] theorem State.nextTick_counters :
    s.nextTick.counters = s.counters := by rfl
@[simp] theorem State.nextTick_fault :
    s.nextTick.fault = s.fault := by rfl
@[simp] theorem State.nextTick_fcause :
    s.nextTick.fcause = s.fcause := by rfl
@[simp] theorem State.nextTick_scratch :
    s.nextTick.scratch = s.scratch := by rfl
@[simp] theorem State.nextTick_transfer :
    s.nextTick.transfer = s.transfer := by rfl
@[simp] theorem State.nextTick_ops :
    s.nextTick.ops = s.ops := by rfl
@[simp] theorem State.nextTick_response :
    s.nextTick.response = s.response := by rfl
@[simp] theorem State.nextTick_source :
    s.nextTick.source = s.source := by rfl
@[simp] theorem State.nextTick_pending :
    s.nextTick.pending = s.pending := by rfl
@[simp] theorem State.nextTick_cw :
    s.nextTick.cw = s.cw := by rfl
@[simp] theorem State.nextTick_tick :
    s.nextTick.tick = s.tick + 1 := by rfl

@[simp] theorem State.setRhdr_counters (h : Bytes8) :
    (s.setRhdr h).counters = s.counters := by rfl
@[simp] theorem State.setRhdr_fault (h : Bytes8) :
    (s.setRhdr h).fault = s.fault := by rfl
@[simp] theorem State.setRhdr_fcause (h : Bytes8) :
    (s.setRhdr h).fcause = s.fcause := by rfl
@[simp] theorem State.setRhdr_scratch (h : Bytes8) :
    (s.setRhdr h).scratch = { s.scratch with rhdr := h } := by rfl
@[simp] theorem State.setRhdr_transfer (h : Bytes8) :
    (s.setRhdr h).transfer = s.transfer := by rfl
@[simp] theorem State.setRhdr_ops (h : Bytes8) :
    (s.setRhdr h).ops = s.ops := by rfl
@[simp] theorem State.setRhdr_response (h : Bytes8) :
    (s.setRhdr h).response = s.response := by rfl
@[simp] theorem State.setRhdr_source (h : Bytes8) :
    (s.setRhdr h).source = s.source := by rfl
@[simp] theorem State.setRhdr_pending (h : Bytes8) :
    (s.setRhdr h).pending = s.pending := by rfl
@[simp] theorem State.setRhdr_cw (h : Bytes8) :
    (s.setRhdr h).cw = s.cw := by rfl
@[simp] theorem State.setRhdr_tick (h : Bytes8) :
    (s.setRhdr h).tick = s.tick := by rfl

@[simp] theorem State.setRftr_counters (f : Bytes4) :
    (s.setRftr f).counters = s.counters := by rfl
@[simp] theorem State.setRftr_fault (f : Bytes4) :
    (s.setRftr f).fault = s.fault := by rfl
@[simp] theorem State.setRftr_fcause (f : Bytes4) :
    (s.setRftr f).fcause = s.fcause := by rfl
@[simp] theorem State.setRftr_scratch (f : Bytes4) :
    (s.setRftr f).scratch = { s.scratch with rftr := f } := by rfl
@[simp] theorem State.setRftr_transfer (f : Bytes4) :
    (s.setRftr f).transfer = s.transfer := by rfl
@[simp] theorem State.setRftr_ops (f : Bytes4) :
    (s.setRftr f).ops = s.ops := by rfl
@[simp] theorem State.setRftr_response (f : Bytes4) :
    (s.setRftr f).response = s.response := by rfl
@[simp] theorem State.setRftr_source (f : Bytes4) :
    (s.setRftr f).source = s.source := by rfl
@[simp] theorem State.setRftr_pending (f : Bytes4) :
    (s.setRftr f).pending = s.pending := by rfl
@[simp] theorem State.setRftr_cw (f : Bytes4) :
    (s.setRftr f).cw = s.cw := by rfl
@[simp] theorem State.setRftr_tick (f : Bytes4) :
    (s.setRftr f).tick = s.tick := by rfl

@[simp] theorem State.setEhdr_counters (h : Bytes8) :
    (s.setEhdr h).counters = s.counters := by rfl
@[simp] theorem State.setEhdr_fault (h : Bytes8) :
    (s.setEhdr h).fault = s.fault := by rfl
@[simp] theorem State.setEhdr_fcause (h : Bytes8) :
    (s.setEhdr h).fcause = s.fcause := by rfl
@[simp] theorem State.setEhdr_scratch (h : Bytes8) :
    (s.setEhdr h).scratch = { s.scratch with ehdr := h } := by rfl
@[simp] theorem State.setEhdr_transfer (h : Bytes8) :
    (s.setEhdr h).transfer = s.transfer := by rfl
@[simp] theorem State.setEhdr_ops (h : Bytes8) :
    (s.setEhdr h).ops = s.ops := by rfl
@[simp] theorem State.setEhdr_response (h : Bytes8) :
    (s.setEhdr h).response = s.response := by rfl
@[simp] theorem State.setEhdr_source (h : Bytes8) :
    (s.setEhdr h).source = s.source := by rfl
@[simp] theorem State.setEhdr_pending (h : Bytes8) :
    (s.setEhdr h).pending = s.pending := by rfl
@[simp] theorem State.setEhdr_cw (h : Bytes8) :
    (s.setEhdr h).cw = s.cw := by rfl
@[simp] theorem State.setEhdr_tick (h : Bytes8) :
    (s.setEhdr h).tick = s.tick := by rfl

@[simp] theorem State.setEftr_counters (f : Bytes4) :
    (s.setEftr f).counters = s.counters := by rfl
@[simp] theorem State.setEftr_fault (f : Bytes4) :
    (s.setEftr f).fault = s.fault := by rfl
@[simp] theorem State.setEftr_fcause (f : Bytes4) :
    (s.setEftr f).fcause = s.fcause := by rfl
@[simp] theorem State.setEftr_scratch (f : Bytes4) :
    (s.setEftr f).scratch = { s.scratch with eftr := f } := by rfl
@[simp] theorem State.setEftr_transfer (f : Bytes4) :
    (s.setEftr f).transfer = s.transfer := by rfl
@[simp] theorem State.setEftr_ops (f : Bytes4) :
    (s.setEftr f).ops = s.ops := by rfl
@[simp] theorem State.setEftr_response (f : Bytes4) :
    (s.setEftr f).response = s.response := by rfl
@[simp] theorem State.setEftr_source (f : Bytes4) :
    (s.setEftr f).source = s.source := by rfl
@[simp] theorem State.setEftr_pending (f : Bytes4) :
    (s.setEftr f).pending = s.pending := by rfl
@[simp] theorem State.setEftr_cw (f : Bytes4) :
    (s.setEftr f).cw = s.cw := by rfl
@[simp] theorem State.setEftr_tick (f : Bytes4) :
    (s.setEftr f).tick = s.tick := by rfl

@[simp] theorem State.respond_counters (r : Response) :
    (s.respond r).counters = s.counters := by rfl
@[simp] theorem State.respond_fault (r : Response) :
    (s.respond r).fault = s.fault := by rfl
@[simp] theorem State.respond_fcause (r : Response) :
    (s.respond r).fcause = s.fcause := by rfl
@[simp] theorem State.respond_scratch (r : Response) :
    (s.respond r).scratch = s.scratch := by rfl
@[simp] theorem State.respond_transfer (r : Response) :
    (s.respond r).transfer = none := by rfl
@[simp] theorem State.respond_ops (r : Response) :
    (s.respond r).ops = s.ops := by rfl
@[simp] theorem State.respond_response (r : Response) :
    (s.respond r).response = some r := by rfl
@[simp] theorem State.respond_source (r : Response) :
    (s.respond r).source = s.source := by rfl
@[simp] theorem State.respond_pending (r : Response) :
    (s.respond r).pending = s.pending := by rfl
@[simp] theorem State.respond_cw (r : Response) :
    (s.respond r).cw = s.cw := by rfl
@[simp] theorem State.respond_tick (r : Response) :
    (s.respond r).tick = s.tick := by rfl

@[simp] theorem State.respondSome_counters (d : Data) :
    (s.respondSome d).counters = s.counters := by rfl
@[simp] theorem State.respondSome_fault (d : Data) :
    (s.respondSome d).fault = s.fault := by rfl
@[simp] theorem State.respondSome_fcause (d : Data) :
    (s.respondSome d).fcause = s.fcause := by rfl
@[simp] theorem State.respondSome_scratch (d : Data) :
    (s.respondSome d).scratch = s.scratch := by rfl
@[simp] theorem State.respondSome_transfer (d : Data) :
    (s.respondSome d).transfer = none := by rfl
@[simp] theorem State.respondSome_ops (d : Data) :
    (s.respondSome d).ops = s.ops := by rfl
@[simp] theorem State.respondSome_response (d : Data) :
    (s.respondSome d).response = some ⟨true, 0, d⟩ := by rfl
@[simp] theorem State.respondSome_source (d : Data) :
    (s.respondSome d).source = s.source := by rfl
@[simp] theorem State.respondSome_pending (d : Data) :
    (s.respondSome d).pending = s.pending := by rfl
@[simp] theorem State.respondSome_cw (d : Data) :
    (s.respondSome d).cw = s.cw := by rfl
@[simp] theorem State.respondSome_tick (d : Data) :
    (s.respondSome d).tick = s.tick := by rfl

@[simp] theorem State.respondNone_counters (c : Cause) :
    (s.respondNone c).counters = s.counters := by rfl
@[simp] theorem State.respondNone_fault (c : Cause) :
    (s.respondNone c).fault = s.fault := by rfl
@[simp] theorem State.respondNone_fcause (c : Cause) :
    (s.respondNone c).fcause = s.fcause := by rfl
@[simp] theorem State.respondNone_scratch (c : Cause) :
    (s.respondNone c).scratch = s.scratch := by rfl
@[simp] theorem State.respondNone_transfer (c : Cause) :
    (s.respondNone c).transfer = none := by rfl
@[simp] theorem State.respondNone_ops (c : Cause) :
    (s.respondNone c).ops = s.ops := by rfl
@[simp] theorem State.respondNone_response (c : Cause) :
    (s.respondNone c).response = some ⟨false, c.code, .absent⟩ := by rfl
@[simp] theorem State.respondNone_source (c : Cause) :
    (s.respondNone c).source = s.source := by rfl
@[simp] theorem State.respondNone_pending (c : Cause) :
    (s.respondNone c).pending = s.pending := by rfl
@[simp] theorem State.respondNone_cw (c : Cause) :
    (s.respondNone c).cw = s.cw := by rfl
@[simp] theorem State.respondNone_tick (c : Cause) :
    (s.respondNone c).tick = s.tick := by rfl

@[simp] theorem State.await_counters (t : Transfer) :
    (s.await t).counters = s.counters := by rfl
@[simp] theorem State.await_fault (t : Transfer) :
    (s.await t).fault = s.fault := by rfl
@[simp] theorem State.await_fcause (t : Transfer) :
    (s.await t).fcause = s.fcause := by rfl
@[simp] theorem State.await_scratch (t : Transfer) :
    (s.await t).scratch = s.scratch := by rfl
@[simp] theorem State.await_transfer (t : Transfer) :
    (s.await t).transfer = some t := by rfl
@[simp] theorem State.await_ops (t : Transfer) :
    (s.await t).ops = s.ops := by rfl
@[simp] theorem State.await_response (t : Transfer) :
    (s.await t).response = none := by rfl
@[simp] theorem State.await_source (t : Transfer) :
    (s.await t).source = s.source := by rfl
@[simp] theorem State.await_pending (t : Transfer) :
    (s.await t).pending = s.pending := by rfl
@[simp] theorem State.await_cw (t : Transfer) :
    (s.await t).cw = s.cw := by rfl
@[simp] theorem State.await_tick (t : Transfer) :
    (s.await t).tick = s.tick := by rfl

@[simp] theorem State.undefine_counters :
    s.undefine.counters = (Config.undefined s.tick).counters.within s.cw := by rfl
@[simp] theorem State.undefine_fault :
    s.undefine.fault = s.fault := by rfl
@[simp] theorem State.undefine_fcause :
    s.undefine.fcause = s.fcause := by rfl
@[simp] theorem State.undefine_scratch :
    s.undefine.scratch = (Config.undefined s.tick).scratch := by rfl
@[simp] theorem State.undefine_transfer :
    s.undefine.transfer = s.transfer := by rfl
@[simp] theorem State.undefine_ops :
    s.undefine.ops = s.ops := by rfl
@[simp] theorem State.undefine_response :
    s.undefine.response = s.response := by rfl
@[simp] theorem State.undefine_source :
    s.undefine.source = s.source.jump (Config.undefined s.tick).cursor := by rfl
@[simp] theorem State.undefine_pending :
    s.undefine.pending = s.pending := by rfl
@[simp] theorem State.undefine_cw :
    s.undefine.cw = s.cw := by rfl
@[simp] theorem State.undefine_tick :
    s.undefine.tick = s.tick + 1 := by rfl

@[simp] theorem State.streamError_counters :
    s.streamError.counters = s.counters := by rfl
@[simp] theorem State.streamError_fault :
    s.streamError.fault = s.fault := by rfl
@[simp] theorem State.streamError_fcause :
    s.streamError.fcause = s.fcause := by rfl
@[simp] theorem State.streamError_scratch :
    s.streamError.scratch = s.scratch := by rfl
@[simp] theorem State.streamError_transfer :
    s.streamError.transfer = s.transfer := by rfl
@[simp] theorem State.streamError_ops :
    s.streamError.ops = s.ops := by rfl
@[simp] theorem State.streamError_response :
    s.streamError.response = s.response := by rfl
@[simp] theorem State.streamError_source :
    s.streamError.source = { s.source.jump (Config.freeCursor s.tick) with answers := s.source.answers.tail } := by rfl
@[simp] theorem State.streamError_pending :
    s.streamError.pending = s.pending := by rfl
@[simp] theorem State.streamError_cw :
    s.streamError.cw = s.cw := by rfl
@[simp] theorem State.streamError_tick :
    s.streamError.tick = s.tick + 1 := by rfl

@[simp] theorem State.accept_counters (r : Request) (rest : List Request) :
    (s.accept r rest).counters = s.counters := by rfl
@[simp] theorem State.accept_fault (r : Request) (rest : List Request) :
    (s.accept r rest).fault = s.fault := by rfl
@[simp] theorem State.accept_fcause (r : Request) (rest : List Request) :
    (s.accept r rest).fcause = s.fcause := by rfl
@[simp] theorem State.accept_scratch (r : Request) (rest : List Request) :
    (s.accept r rest).scratch = s.scratch := by rfl
@[simp] theorem State.accept_transfer (r : Request) (rest : List Request) :
    (s.accept r rest).transfer = s.transfer := by rfl
@[simp] theorem State.accept_ops (r : Request) (rest : List Request) :
    (s.accept r rest).ops = r.ops := by rfl
@[simp] theorem State.accept_response (r : Request) (rest : List Request) :
    (s.accept r rest).response = s.response := by rfl
@[simp] theorem State.accept_source (r : Request) (rest : List Request) :
    (s.accept r rest).source = r.attach.getD s.source := by rfl
@[simp] theorem State.accept_pending (r : Request) (rest : List Request) :
    (s.accept r rest).pending = rest := by rfl
@[simp] theorem State.accept_cw (r : Request) (rest : List Request) :
    (s.accept r rest).cw = s.cw := by rfl
@[simp] theorem State.accept_tick (r : Request) (rest : List Request) :
    (s.accept r rest).tick = s.tick := by rfl

@[simp] theorem takeFault_counters (c : FaultCause) :
    (takeFault c s).counters = (Config.undefined s.tick).counters.within s.cw := by rfl
@[simp] theorem takeFault_fault (c : FaultCause) :
    (takeFault c s).fault = true := by rfl
@[simp] theorem takeFault_fcause (c : FaultCause) :
    (takeFault c s).fcause = bif s.fault then s.fcause else c.code := by rfl
@[simp] theorem takeFault_scratch (c : FaultCause) :
    (takeFault c s).scratch = (Config.undefined s.tick).scratch := by rfl
@[simp] theorem takeFault_transfer (c : FaultCause) :
    (takeFault c s).transfer = none := by rfl
@[simp] theorem takeFault_ops (c : FaultCause) :
    (takeFault c s).ops = s.ops := by rfl
@[simp] theorem takeFault_response (c : FaultCause) :
    (takeFault c s).response = some { (Config.undefined s.tick).response with cause := c.code } := by rfl
@[simp] theorem takeFault_source (c : FaultCause) :
    (takeFault c s).source = s.source.jump (Config.undefined s.tick).cursor := by rfl
@[simp] theorem takeFault_pending (c : FaultCause) :
    (takeFault c s).pending = s.pending := by rfl
@[simp] theorem takeFault_cw (c : FaultCause) :
    (takeFault c s).cw = s.cw := by rfl
@[simp] theorem takeFault_tick (c : FaultCause) :
    (takeFault c s).tick = s.tick + 1 := by rfl

@[simp] theorem undefinedCommand_counters :
    (undefinedCommand s).counters = (Config.undefined s.tick).counters.within s.cw := by rfl
@[simp] theorem undefinedCommand_fault :
    (undefinedCommand s).fault = s.fault := by rfl
@[simp] theorem undefinedCommand_fcause :
    (undefinedCommand s).fcause = s.fcause := by rfl
@[simp] theorem undefinedCommand_scratch :
    (undefinedCommand s).scratch = (Config.undefined s.tick).scratch := by rfl
@[simp] theorem undefinedCommand_transfer :
    (undefinedCommand s).transfer = none := by rfl
@[simp] theorem undefinedCommand_ops :
    (undefinedCommand s).ops = s.ops := by rfl
@[simp] theorem undefinedCommand_response :
    (undefinedCommand s).response = some (Config.undefined s.tick).response := by rfl
@[simp] theorem undefinedCommand_source :
    (undefinedCommand s).source = { s.source.jump (Config.undefined s.tick).cursor with
      answers := s.source.answers.drop (Config.undefined s.tick).accesses } := by rfl
@[simp] theorem undefinedCommand_pending :
    (undefinedCommand s).pending = s.pending := by rfl
@[simp] theorem undefinedCommand_cw :
    (undefinedCommand s).cw = s.cw := by rfl
@[simp] theorem undefinedCommand_tick :
    (undefinedCommand s).tick = s.tick + 1 := by rfl

end Sys2Proof.Machine
end

