-- ==== Sys2Proof/Laws/Units.lean ====
section
/-! SUPPORT. One spec lemma per operand form and flag: what it is as a number. -/

namespace Sys2Proof

@[simp] theorem Bytes8.toList_length (b : Bytes8) : b.toList.length = 8 := rfl

@[simp] theorem Bytes4.toList_length (b : Bytes4) : b.toList.length = 4 := rfl

@[simp] theorem Bytes8.ofList?_toList (b : Bytes8) : Bytes8.ofList? b.toList = some b := rfl

@[simp] theorem Bytes4.ofList?_toList (b : Bytes4) : Bytes4.ofList? b.toList = some b := rfl

theorem Bytes8.ofList?_eq_some {l : List Byte} {b : Bytes8} (h : Bytes8.ofList? l = some b) :
    l = b.toList := by
  unfold Bytes8.ofList? at h
  split at h
  · cases h; rfl
  · cases h

theorem Bytes4.ofList?_eq_some {l : List Byte} {b : Bytes4} (h : Bytes4.ofList? l = some b) :
    l = b.toList := by
  unfold Bytes4.ofList? at h
  split at h
  · cases h; rfl
  · cases h

theorem Bytes8.ofList?_eq_none {l : List Byte} : Bytes8.ofList? l = none ↔ l.length ≠ 8 := by
  constructor
  · intro h hl
    match l, hl with
    | [_, _, _, _, _, _, _, _], _ => cases h
  · intro h
    cases e : Bytes8.ofList? l with
    | none => rfl
    | some b => rw [Bytes8.ofList?_eq_some e] at h; exact absurd rfl h

theorem Bytes4.ofList?_eq_none {l : List Byte} : Bytes4.ofList? l = none ↔ l.length ≠ 4 := by
  constructor
  · intro h hl
    match l, hl with
    | [_, _, _, _], _ => cases h
  · intro h
    cases e : Bytes4.ofList? l with
    | none => rfl
    | some b => rw [Bytes4.ofList?_eq_some e] at h; exact absurd rfl h

namespace Machine

theorem overhead_eq : Config.overhead = 12 := rfl

theorem lengthField_toNat (n : Nat) : (lengthField n).toNat = (12 + n) % 65536 := by
  simp [lengthField, overhead_eq]

theorem timeField_toNat (t : Nat) : (timeField t).toNat = t % 16777216 := by
  simp [timeField]

theorem headerLength_toNat (h : Bytes8) : (headerLength h).toNat = h.b0.toNat * 256 + h.b1.toNat := by
  have h0 := h.b0.isLt
  have h1 := h.b1.isLt
  simp only [headerLength, ube16, BitVec.toNat_ofNat]
  omega

theorem headerTime_toNat (h : Bytes8) :
    (headerTime h).toNat = h.b5.toNat * 65536 + h.b6.toNat * 256 + h.b7.toNat := by
  have h5 := h.b5.isLt
  have h6 := h.b6.isLt
  have h7 := h.b7.isLt
  simp only [headerTime, ube24, BitVec.toNat_ofNat]
  omega

/-- A byte slice of a field, as a number. -/
theorem extractByte_toNat {w : Nat} (v : BitVec w) (k : Nat) :
    (v.extractLsb' k 8).toNat = v.toNat / 2 ^ k % 256 := by
  simp [BitVec.extractLsb'_toNat, Nat.shiftRight_eq_div_pow]

theorem payloadLength_of_le {flen : BitVec 16} (h : 12 ≤ flen.toNat) :
    payloadLength flen = some (BitVec.ofNat 16 (flen.toNat - 12)) := by
  simp [payloadLength, overhead_eq, h]

theorem payloadLength_of_lt {flen : BitVec 16} (h : flen.toNat < 12) : payloadLength flen = none := by
  simp [payloadLength, overhead_eq, Nat.not_le.2 h]

theorem payloadLength_some {flen plen : BitVec 16} (h : payloadLength flen = some plen) :
    plen.toNat + 12 = flen.toNat := by
  have hlt := flen.isLt
  by_cases hf : 12 ≤ flen.toNat
  · rw [payloadLength_of_le hf] at h
    cases h
    simp only [BitVec.toNat_ofNat]
    omega
  · rw [payloadLength_of_lt (by omega)] at h
    cases h

theorem footerMatches_iff (f : Bytes4) :
    footerMatches f = true ↔ f = ⟨0xA5, 0xA5, 0xA5, 0xA5⟩ := by
  cases f
  simp only [footerMatches, Config.footerByte, Bool.and_eq_true, beq_iff_eq, Bytes4.mk.injEq,
    and_assoc]

theorem statusWord_toNat (fault : Bool) (fcause : BitVec 4) :
    (statusWord fault fcause).toNat = fcause.toNat * 16 + fault.toNat := by
  revert fcause fault
  decide

end Machine
end Sys2Proof
end

