-- ==== Sys2Proof/Laws/Ops.lean ====
section
/-! SUPPORT. One lemma per shared operation that says what it can do, and that the operations keep the
cursor within the stream and the counters within their width. -/

namespace Sys2Proof.Machine

@[simp] theorem State.setCounters_self (s : State) : s.setCounters s.counters = s := rfl

theorem Source.jump_inRange (src : Source) (pos : Nat) : (src.jump pos).InRange :=
  Nat.min_le_right _ _

theorem Source.grant_length (src : Source) (k : Nat) :
    (src.grant k).length = min (src.bound k) src.left := by
  simp [Source.grant, Source.left]

theorem Source.grant_length_le (src : Source) (k : Nat) : (src.grant k).length ≤ k := by
  rw [Source.grant_length]
  have : src.bound k ≤ k := by
    unfold Source.bound
    split
    · exact Nat.min_le_right _ _
    · exact Nat.le_refl k
  omega

theorem Source.consume_inRange {src : Source} (h : src.InRange) (k : Nat) : (src.consume k).InRange := by
  have hl := src.grant_length k
  unfold Source.InRange at h ⊢
  unfold Source.left at hl
  simp only [Source.consume]
  omega

theorem Counters.within_fits (cw : Nat) (c : Counters) : (c.within cw).Fits cw := by
  have h : 0 < 2 ^ cw := Nat.two_pow_pos cw
  exact ⟨Nat.mod_lt _ h, Nat.mod_lt _ h, Nat.mod_lt _ h, Nat.mod_lt _ h⟩

/-- `inc` answers a counter one higher, still within `CW` bits, and leaves the others. -/
theorem Counters.inc_some {cw : Nat} {c c' : Counters} {x : CounterName} (h : c.inc cw x = some c') :
    c.get x ≠ 2 ^ cw - 1 ∧ c' = c.set (c.get x + 1) x := by
  unfold Counters.inc at h
  split at h
  · cases h
  · rename_i hne
    exact ⟨hne, by cases h; rfl⟩

theorem Counters.inc_fits {cw : Nat} {c c' : Counters} {x : CounterName} (h : c.inc cw x = some c')
    (hf : c.Fits cw) : c'.Fits cw := by
  obtain ⟨hne, rfl⟩ := Counters.inc_some h
  obtain ⟨h1, h2, h3, h4⟩ := hf
  cases x <;> simp only [Counters.get] at hne <;>
    simp only [Counters.Fits, Counters.set, Counters.get] <;> omega

theorem Counters.incAll_fits {cw : Nat} {xs : List CounterName} :
    ∀ {c c' : Counters}, c.incAll cw xs = some c' → c.Fits cw → c'.Fits cw := by
  induction xs with
  | nil => intro c c' h hf; cases h; exact hf
  | cons x xs ih =>
    intro c c' h hf
    unfold Counters.incAll at h
    split at h
    · cases h
    · rename_i c1 h1
      exact ih h (Counters.inc_fits h1 hf)

/-- `count` either takes `CNT_OVERFLOW` or goes on with the counters moved. -/
theorem count_cases (xs : List CounterName) (s : State) (k : State → State) :
    (s.counters.incAll s.cw xs = none ∧ count xs s k = takeFault .cntOverflow s) ∨
    (∃ c, s.counters.incAll s.cw xs = some c ∧ count xs s k = k (s.setCounters c)) := by
  unfold count
  cases h : s.counters.incAll s.cw xs with
  | none => exact .inl ⟨rfl, rfl⟩
  | some c => exact .inr ⟨c, rfl, rfl⟩

/-- Everything `SrcRead(k)` can do. -/
theorem srcRead_cases (k : Nat) (s : State) :
    (k = 0 ∧ srcRead k s = (.answer [], s)) ∨
    (k ≠ 0 ∧ s.source.answers.head? = some .stall ∧ srcRead k s = (.noAnswer, s)) ∨
    (k ≠ 0 ∧ s.source.answers.head? = some .err ∧ srcRead k s = (.err, s.streamError)) ∨
    (k ≠ 0 ∧ s.source.answers.head? ≠ some .stall ∧ s.source.answers.head? ≠ some .err ∧
      srcRead k s = (.answer (s.source.grant k), s.setSource (s.source.consume k))) := by
  unfold srcRead
  by_cases hk : k = 0
  · exact .inl ⟨hk, by simp [hk]⟩
  · right
    rw [if_neg hk]
    cases h : s.source.answers.head? with
    | none => simp [hk]
    | some a => cases a <;> simp [hk]

/-- Everything `SrcAvail()` can do. -/
theorem srcAvail_cases (s : State) :
    (s.source.answers.head? = some .stall ∧ srcAvail s = (.noAnswer, s)) ∨
    (s.source.answers.head? = some .err ∧ srcAvail s = (.err, s.streamError)) ∨
    (s.source.answers.head? ≠ some .stall ∧ s.source.answers.head? ≠ some .err ∧
      srcAvail s = (.answer (s.source.bound s.source.left),
        s.setSource { s.source with answers := s.source.answers.tail })) := by
  unfold srcAvail
  cases h : s.source.answers.head? with
  | none => simp
  | some a => cases a <;> simp

/-- With `FAULT` = 0 a command does what its rule says. -/
theorem unlessFaulted_of_clear {s : State} (h : s.fault = false) (run : State → State) :
    unlessFaulted s run = run s := by simp [unlessFaulted, h]

/-- With `FAULT` = 1 a command's result is not defined. -/
theorem unlessFaulted_of_fault {s : State} (h : s.fault = true) (run : State → State) :
    unlessFaulted s run = undefinedCommand s := by simp [unlessFaulted, h]

/-- The outcomes of `READ` and `READC` once the footer is read. -/
theorem readFinish_cases (filter : Option Byte) (payload : List Byte) (s : State) :
    (footerMatches s.scratch.rftr = false ∧ readFinish filter payload s = dropFooter s) ∨
    (footerMatches s.scratch.rftr = true ∧ filter.isSome = true ∧ payload = [] ∧
      readFinish filter payload s = takeFault .emptyCategory s) ∨
    (footerMatches s.scratch.rftr = true ∧ ¬(filter.isSome = true ∧ payload = []) ∧
      readFinish filter payload s = count [.framesRead] s fun s =>
        if passesFilter filter payload then s.respondSome (.payload payload)
        else s.respondNone .filtered) := by
  unfold readFinish
  by_cases hf : footerMatches s.scratch.rftr = false
  · exact .inl ⟨hf, by simp [hf]⟩
  · have ht : footerMatches s.scratch.rftr = true := by simpa using hf
    by_cases he : filter.isSome = true ∧ payload = []
    · exact .inr (.inl ⟨ht, he.1, he.2, by simp [ht, he]⟩)
    · exact .inr (.inr ⟨ht, he, by rw [if_neg (by simp [ht]), if_neg he]⟩)

end Sys2Proof.Machine
end

