-- ==== Sys2Proof/Laws/Arrive.lean ====
section
/-! SUPPORT. What a read does, as far as the source's answers carry it: one lemma per stage of
42_frame_operations.md R91, each from the stage before it. -/

namespace Sys2Proof.Machine

variable {s : State} {f : Option Byte} {hdr : Bytes8} {rest : List Byte} {given avail : Nat}
  {later : List Answer}

/-- The source after an answered read of `k` bytes. -/
abbrev State.past (s : State) (k : Nat) (later : List Answer) : State :=
  s.setSource { s.source with pos := s.source.pos + k, answers := later }

/-- The plain source answers every access with all it has. -/
theorem answered_plain (n : Nat) : Answered [] n n [] := .inl ⟨rfl, rfl, rfl⟩

theorem answered_full (n : Nat) (later : List Answer) : Answered (.full :: later) n n later :=
  .inr (.inl ⟨rfl, rfl⟩)

theorem answered_upTo (m n : Nat) (later : List Answer) : Answered (.upTo m :: later) n (min m n) later :=
  .inr (.inr ⟨m, rfl, rfl⟩)

theorem Answered.le {answers : List Answer} {left : Nat} (h : Answered answers left given later) :
    given ≤ left := by
  rcases h with ⟨-, rfl, -⟩ | ⟨-, rfl⟩ | ⟨m, -, rfl⟩
  · exact Nat.le_refl _
  · exact Nat.le_refl _
  · exact Nat.min_le_right _ _

theorem State.left_eq (s : State) : s.source.left = s.upcoming.length := by
  simp [State.upcoming, Source.left]

/-- What is left after `a` is consumed. -/
theorem State.upcoming_past {a : List Byte} (h : s.upcoming = a ++ rest) :
    (s.past a.length later).upcoming = rest := by
  unfold State.upcoming at h ⊢
  simp [← List.drop_drop, h]

/-- An answered read of `k` bytes gives the first `k` of what the source lets through. -/
theorem srcRead_answered {k : Nat} (hk : k ≠ 0)
    (h : Answered s.source.answers s.upcoming.length given later) :
    srcRead k s = (.answer (s.upcoming.take (min k given)), s.past (min k given) later) := by
  have hb : s.source.grant k = s.upcoming.take (min k given) := by
    show s.upcoming.take (s.source.bound k) = _
    rw [List.take_eq_take_iff]
    rcases h with ⟨e, rfl, -⟩ | ⟨e, rfl⟩ | ⟨m, e, rfl⟩ <;> (simp [Source.bound, e]; try omega)
  have ht : s.source.answers.tail = later := by
    rcases h with ⟨e, -, rfl⟩ | ⟨e, -⟩ | ⟨m, e, -⟩ <;> simp [e]
  have hl : (s.upcoming.take (min k given)).length = min k given := by
    have := h.le
    simp only [List.length_take]
    omega
  have hc : s.source.consume k = { s.source with pos := s.source.pos + min k given, answers := later } := by
    simp only [Source.consume, hb, hl, ht]
  rcases srcRead_cases k s with e | ⟨-, e, -⟩ | ⟨-, e, -⟩ | ⟨-, -, -, e⟩
  · exact absurd e.1 hk
  · rcases h with ⟨e', -⟩ | ⟨e', -⟩ | ⟨m, e', -⟩ <;> simp [e'] at e
  · rcases h with ⟨e', -⟩ | ⟨e', -⟩ | ⟨m, e', -⟩ <;> simp [e'] at e
  · rw [e, hb, hc]

/-- An answered read of exactly the bytes `a` that come next. -/
theorem srcRead_gives {a : List Byte} (ha : a.length ≠ 0) (hu : s.upcoming = a ++ rest)
    (h : Answered s.source.answers s.upcoming.length given later) (hg : a.length ≤ given) :
    srcRead a.length s = (.answer a, s.past a.length later) := by
  rw [srcRead_answered ha h, Nat.min_eq_left hg, hu, List.take_left]

/-- An answered query reports what the source lets see, and consumes nothing. -/
theorem srcAvail_answered (h : Answered s.source.answers s.upcoming.length given later) :
    srcAvail s = (.answer given, s.past 0 later) := by
  have hl := s.left_eq
  rcases h with ⟨e, rfl, rfl⟩ | ⟨e, rfl⟩ | ⟨m, e, rfl⟩ <;> simp [srcAvail, Source.bound, State.past, e, hl]

/-- `Err` at a read that touches the source. -/
theorem srcRead_err {k : Nat} (hk : k ≠ 0) (h : s.source.answers = .err :: later) :
    srcRead k s = (.err, s.streamError) := by simp [srcRead, hk, h]

/-- `Err` at the availability query. -/
theorem srcAvail_err (h : s.source.answers = .err :: later) : srcAvail s = (.err, s.streamError) := by
  simp [srcAvail, h]

/-- A header read that gives fewer than 8 bytes. -/
theorem readHeader_of_short (h : Answered s.source.answers s.upcoming.length given later)
    (hg : given < 8) : readHeader f s = dropSize (s.past given later) := by
  have hle := h.le
  unfold readHeader
  rw [srcRead_answered (by decide) h, Nat.min_eq_right (show given ≤ Config.headerLen from Nat.le_of_lt hg)]
  simp only
  rw [Bytes8.ofList?_eq_none.2 (by rw [List.length_take]; omega)]

/-- The header is in `RHDR`, and the size check is next. -/
theorem readHeader_of_headerArrives (h : s.HeaderArrives hdr rest later) :
    readHeader f s = readSize f ((s.past 8 later).setRhdr hdr) ∧
    ((s.past 8 later).setRhdr hdr).upcoming = rest := by
  obtain ⟨hu, given, hg, h⟩ := h
  refine ⟨?_, State.upcoming_past hu⟩
  unfold readHeader
  have e := srcRead_gives (by simp) hu h hg
  rw [Bytes8.toList_length] at e
  rw [show Config.headerLen = 8 from rfl, e]
  simp

/-- The size check has been made. -/
theorem readHeader_of_sizeKnown (h : s.SizeKnown hdr rest avail later) :
    readHeader f s =
      (if declared hdr ≤ 8 + avail then readPayload f ((s.past 8 later).setRhdr hdr)
       else dropSize ((s.past 8 later).setRhdr hdr)) ∧
    ((s.past 8 later).setRhdr hdr).upcoming = rest := by
  obtain ⟨l, h, ha⟩ := h
  obtain ⟨e, hu⟩ := readHeader_of_headerArrives (f := f) h
  refine ⟨?_, hu⟩
  rw [e]
  unfold readSize
  rw [srcAvail_answered (given := avail) (later := later) (by rw [hu]; exact ha)]
  simp [sizeFits, headerLength_toNat, declared, Config.headerLen, State.setRhdr, State.setScratch,
    State.setSource]

/-- The payload length `readPayload` reads with. -/
theorem payloadLength_of_declared (h : 12 ≤ declared hdr) :
    ∃ plen, payloadLength (headerLength hdr) = some plen ∧ plen.toNat = declared hdr - 12 := by
  have hl := headerLength_toNat hdr
  have hlt := (headerLength hdr).isLt
  refine ⟨_, payloadLength_of_le (by rw [hl]; exact h), ?_⟩
  simp only [BitVec.toNat_ofNat, declared]
  omega

/-- The payload has been read, and the footer read is next. -/
theorem readHeader_of_payloadArrives (h : s.PayloadArrives hdr rest later) :
    readHeader f s =
      readFooter f (rest.take (declared hdr - 12)) ((s.past (declared hdr - 4) later).setRhdr hdr) ∧
    ((s.past (declared hdr - 4) later).setRhdr hdr).upcoming = rest.drop (declared hdr - 12) ∧
    declared hdr - 8 ≤ rest.length := by
  obtain ⟨avail, l, hs, h12, hle, hp⟩ := h
  obtain ⟨e, hu⟩ := readHeader_of_sizeKnown (f := f) hs
  obtain ⟨l1, -, hav⟩ := hs
  have hav := hav.le
  obtain ⟨plen, he, hn⟩ := payloadLength_of_declared h12
  rw [e, if_pos hle]
  unfold readPayload
  simp only [State.setRhdr_scratch, he, hn]
  have hlen : (rest.take (declared hdr - 12)).length = declared hdr - 12 := by
    rw [List.length_take]; omega
  have hd : s.upcoming.drop 8 = rest := by
    unfold State.upcoming at hu ⊢
    simpa [List.drop_drop] using hu
  have hup : ((s.past (declared hdr - 4) later).setRhdr hdr).upcoming = rest.drop (declared hdr - 12) := by
    rw [← hd]
    unfold State.upcoming
    simp only [State.setRhdr_source, State.setSource_source, List.drop_drop]
    congr 1
    omega
  refine ⟨?_, hup, by omega⟩
  rcases hp with ⟨hz, rfl⟩ | ⟨hz, given, hg, ha⟩
  · rw [hz]
    simp [srcRead]
  · have hr := srcRead_gives (s := (s.past 8 l).setRhdr hdr) (rest := rest.drop (declared hdr - 12))
      (a := rest.take (declared hdr - 12)) (given := given) (later := later)
      (by rw [hlen]; omega) (by rw [hu, List.take_append_drop]) (by rw [hu]; exact ha)
      (by rw [hlen]; omega)
    rw [hlen] at hr
    rw [hr]
    simp only [hlen, Nat.lt_irrefl, if_false]
    congr 1
    simp only [State.past, State.setRhdr, State.setScratch, State.setSource]
    congr 2
    omega

/-- The whole frame has been read, and its footer is checked next. -/
theorem readHeader_of_frameArrives {body : List Byte} {ftr : Bytes4}
    (h : s.FrameArrives hdr body ftr rest later) :
    readHeader f s =
      readFinish f body (((s.past (12 + body.length) later).setRhdr hdr).setRftr ftr) := by
  obtain ⟨hd, l, given, hp, hg, ha⟩ := h
  obtain ⟨e, hu, -⟩ := readHeader_of_payloadArrives (f := f) hp
  have hb : declared hdr - 12 = body.length := by omega
  rw [hb, List.append_assoc, List.take_left] at e
  rw [hb, List.append_assoc, List.drop_left] at hu
  rw [e]
  unfold readFooter
  have hr := srcRead_gives (given := given) (later := later) (by simp) hu
    (by rw [hu]; simpa using ha) (by simpa using hg)
  rw [Bytes4.toList_length] at hr
  rw [show Config.footerLen = 4 from rfl, hr]
  simp only [Bytes4.ofList?_toList]
  congr 1
  simp only [State.past, State.setRhdr, State.setRftr, State.setScratch, State.setSource]
  congr 2
  omega

/-- A frame in the plain source arrives. -/
theorem State.PlainSource.frameArrives {body : List Byte} {ftr : Bytes4} (hp : s.PlainSource)
    (hu : s.upcoming = hdr.toList ++ (body ++ ftr.toList ++ rest))
    (hd : declared hdr = 12 + body.length) : s.FrameArrives hdr body ftr rest [] := by
  have hl := congrArg List.length hu
  simp only [List.length_append, Bytes8.toList_length, Bytes4.toList_length] at hl
  refine ⟨hd, [], 4 + rest.length, ⟨(body ++ ftr.toList ++ rest).length, [],
    ⟨[], ⟨hu, s.upcoming.length, by omega, by rw [hp.1]; exact answered_plain _⟩, answered_plain _⟩,
    by omega, by simp; omega, ?_⟩, by omega, answered_plain _⟩
  by_cases h : body.length = 0
  · exact .inl ⟨by omega, rfl⟩
  · exact .inr ⟨by omega, _, by simp; omega, answered_plain _⟩

/-- A header in the plain source arrives, and all that follows it is reported. -/
theorem State.PlainSource.sizeKnown (hp : s.PlainSource) (hu : s.upcoming = hdr.toList ++ rest) :
    s.SizeKnown hdr rest rest.length [] := by
  have hl := congrArg List.length hu
  simp only [List.length_append, Bytes8.toList_length] at hl
  exact ⟨[], ⟨hu, s.upcoming.length, by omega, by rw [hp.1]; exact answered_plain _⟩, answered_plain _⟩

/-- With `FAULT` = 0 a `READ` or `READC` is its header read and what follows. -/
theorem exec_readCommand (f : Option Byte) (h : s.fault = false) :
    exec (readCommand f) s = .next (readHeader f s) := by
  cases f <;> simp [readCommand, exec, execRead, execReadc, unlessFaulted_of_clear h]

/-- A read that meets `Err` ends by a stream error in a state that differs from its start only in the
cursor, the source's answers and `RHDR`. -/
theorem readHeader_of_meetsErr (h : s.MeetsErr later) :
    ∃ k r, readHeader f s = ioError (((s.past k (.err :: later)).setRhdr r).streamError) := by
  rcases h with h | ⟨hdr, rest, h⟩ | ⟨hdr, rest, avail, h, h12, hle⟩ | ⟨hdr, rest, h⟩
  · refine ⟨0, s.scratch.rhdr, ?_⟩
    have e : ((s.past 0 (.err :: later)).setRhdr s.scratch.rhdr) = s := by
      rw [← h]; rfl
    unfold readHeader
    rw [srcRead_err (by decide) h, e]
  · refine ⟨8, hdr, ?_⟩
    rw [(readHeader_of_headerArrives h).1]
    unfold readSize
    rw [srcAvail_err (later := later) (by simp)]
  · refine ⟨8, hdr, ?_⟩
    obtain ⟨plen, he, hn⟩ := payloadLength_of_declared (Nat.le_of_lt h12)
    rw [(readHeader_of_sizeKnown h).1, if_pos hle]
    unfold readPayload
    simp only [State.setRhdr_scratch, he]
    rw [srcRead_err (later := later) (by omega) (by simp)]
  · refine ⟨declared hdr - 4, hdr, ?_⟩
    rw [(readHeader_of_payloadArrives h).1]
    unfold readFooter
    rw [srcRead_err (later := later) (by decide) (by simp)]

/-- A payload or footer read that comes back short is the fault `SHORT_BODY`, taken with `FAULT` as it
was. -/
theorem readHeader_of_meetsShortBody (h : s.MeetsShortBody) :
    ∃ v : State, readHeader f s = takeFault .shortBody v ∧ v.fault = s.fault := by
  rcases h with ⟨hdr, rest, avail, l, given, later, h, h12, hle, ha, hg⟩ | ⟨hdr, rest, l, given, later, h, ha, hg⟩
  · obtain ⟨e, hu⟩ := readHeader_of_sizeKnown (f := f) h
    obtain ⟨plen, he, hn⟩ := payloadLength_of_declared (Nat.le_of_lt h12)
    rw [e, if_pos hle]
    unfold readPayload
    simp only [State.setRhdr_scratch, he]
    rw [srcRead_answered (given := given) (later := later) (by omega) (by rw [hu]; exact ha)]
    simp only
    rw [if_pos (by rw [List.length_take]; omega)]
    exact ⟨_, rfl, rfl⟩
  · obtain ⟨e, hu, -⟩ := readHeader_of_payloadArrives (f := f) h
    rw [e]
    unfold readFooter
    rw [srcRead_answered (given := given) (later := later) (by decide)
      (by rw [hu, List.length_drop]; exact ha)]
    simp only
    rw [Bytes4.ofList?_eq_none.2 (by rw [List.length_take]; omega)]
    exact ⟨_, rfl, rfl⟩

end Sys2Proof.Machine
end

