-- ==== Sys2Proof/Laws/PerInstr.lean ====
section
/-! SUPPORT. Facts of every command as syntax, one lemma per constructor. -/

namespace Sys2Proof.Laws.WordFields

/-- The word of a command has its `zero` field 0, its opcode and its argument in their fields
(30_encoding.md R58), and an opcode of 30_encoding.md R59. -/
def Statement (i : Instr) : Prop :=
  zeroField (encode i) = 0 ∧ opField (encode i) = opcode i ∧ arg8Field (encode i) = argument i ∧
  1 ≤ (opcode i).toNat ∧ (opcode i).toNat ≤ 11

theorem hdrenc : Statement .hdrenc := by unfold Statement; decide

theorem ftrgen : Statement .ftrgen := by unfold Statement; decide

theorem hdrdec : Statement .hdrdec := by unfold Statement; decide

theorem szchk : Statement .szchk := by unfold Statement; decide

theorem plen : Statement .plen := by unfold Statement; decide

theorem ftrchk : Statement .ftrchk := by unfold Statement; decide

theorem catchk : Statement .catchk := by unfold Statement; decide

theorem encode : Statement .encode := by unfold Statement; decide

theorem read : Statement .read := by unfold Statement; decide

theorem readc (cat : Byte) : Statement (.readc cat) := by
  revert cat; unfold Statement; decide

theorem cntrd (idx : BitVec 3) : Statement (.cntrd idx) := by
  revert idx; unfold Statement; decide

end Sys2Proof.Laws.WordFields
end

