-- ==== Sys2Proof/Laws/Read.lean ====
section
/-! SUPPORT. What a `READ` or `READC` can do, said once: the principle by which a property of the state it
starts in is carried through its accesses of the source to a property of the state it ends in. -/

namespace Sys2Proof.Machine

/-- `P` is kept by every access of a read, and every way a read can end from a state with `P` has `Q`
(42_frame_operations.md R91, R96). `W` is what is known of the access a read waits at and the header it
has read: at most `Phase.Fits`, or nothing where also states no run reaches are meant. -/
structure ReadClosed (f : Option Byte) (W : Phase → Bytes8 → Prop) (P Q : State → Prop) : Prop where
  fits : ∀ p r, p.Fits r → W p r
  consume : ∀ u k, P u → P (u.setSource (u.source.consume k))
  asked : ∀ u, P u → P (u.setSource { u.source with answers := u.source.answers.tail })
  rhdr : ∀ u h, P u → P (u.setRhdr h)
  rftr : ∀ u h, P u → P (u.setRftr h)
  dropSize : ∀ u, P u → Q (dropSize u)
  dropFooter : ∀ u, P u → Q (dropFooter u)
  ioError : ∀ u, P u → Q (ioError u.streamError)
  takeFault : ∀ c u, c ≠ .illegalCmd → P u → Q (takeFault c u)
  await : ∀ u p, P u → W p u.scratch.rhdr → u.source.answers.head? = some .stall →
    Q (u.await ⟨f, p⟩)
  finish : ∀ u body, P u → ¬(f.isSome = true ∧ body = []) →
    Q (count [.framesRead] u fun s =>
      if passesFilter f body then s.respondSome (.payload body) else s.respondNone .filtered)

variable {f : Option Byte} {W : Phase → Bytes8 → Prop} {P Q : State → Prop} {s : State}

theorem ReadClosed.readFinish (hc : ReadClosed f W P Q) (hs : P s) (body : List Byte) :
    Q (readFinish f body s) := by
  rcases readFinish_cases f body s with ⟨-, e⟩ | ⟨-, -, -, e⟩ | ⟨-, hn, e⟩
  · rw [e]; exact hc.dropFooter s hs
  · rw [e]; exact hc.takeFault _ s (by decide) hs
  · rw [e]; exact hc.finish s body hs hn

theorem ReadClosed.readFooter (hc : ReadClosed f W P Q) (hs : P s) {body : List Byte}
    (hb : W (.footer body) s.scratch.rhdr) : Q (readFooter f body s) := by
  unfold Sys2Proof.Machine.readFooter
  rcases srcRead_cases Config.footerLen s with ⟨h, -⟩ | ⟨-, h, e⟩ | ⟨-, -, e⟩ | ⟨-, -, -, e⟩
  · exact absurd h (by decide)
  · rw [e]; exact hc.await s _ hs hb h
  · rw [e]; exact hc.ioError s hs
  · rw [e]
    simp only
    split
    · exact hc.takeFault _ _ (by decide) (hc.consume s _ hs)
    · exact hc.readFinish (hc.rftr _ _ (hc.consume s _ hs)) body

theorem ReadClosed.readPayload (hc : ReadClosed f W P Q) (hs : P s) : Q (readPayload f s) := by
  unfold Sys2Proof.Machine.readPayload
  split
  · exact hc.takeFault _ s (by decide) hs
  · rename_i plen hp
    have hlen := payloadLength_some hp
    rcases srcRead_cases plen.toNat s with ⟨h, e⟩ | ⟨h0, h, e⟩ | ⟨-, -, e⟩ | ⟨-, -, -, e⟩
    · rw [e]
      simp only [h, List.length_nil, Nat.lt_irrefl, if_false]
      exact hc.readFooter hs (hc.fits _ _ (show 0 + 12 = _ by omega))
    · rw [e]; exact hc.await s _ hs (hc.fits _ _ (show 12 < _ by omega)) h
    · rw [e]; exact hc.ioError s hs
    · rw [e]
      simp only
      split
      · exact hc.takeFault _ _ (by decide) (hc.consume s _ hs)
      · rename_i hlt
        have hle := s.source.grant_length_le plen.toNat
        exact hc.readFooter (hc.consume s _ hs)
          (hc.fits _ _ (by rw [State.setSource_scratch]; unfold Phase.Fits; simp only; omega))

theorem ReadClosed.readSize (hc : ReadClosed f W P Q) (hs : P s) : Q (readSize f s) := by
  unfold Sys2Proof.Machine.readSize
  rcases srcAvail_cases s with ⟨h, e⟩ | ⟨-, e⟩ | ⟨-, -, e⟩
  · rw [e]; exact hc.await s _ hs (hc.fits _ _ trivial) h
  · rw [e]; exact hc.ioError s hs
  · rw [e]
    simp only
    split
    · exact hc.readPayload (hc.asked s hs)
    · exact hc.dropSize _ (hc.asked s hs)

theorem ReadClosed.readHeader (hc : ReadClosed f W P Q) (hs : P s) : Q (readHeader f s) := by
  unfold Sys2Proof.Machine.readHeader
  rcases srcRead_cases Config.headerLen s with ⟨h, -⟩ | ⟨-, h, e⟩ | ⟨-, -, e⟩ | ⟨-, -, -, e⟩
  · exact absurd h (by decide)
  · rw [e]; exact hc.await s _ hs (hc.fits _ _ trivial) h
  · rw [e]; exact hc.ioError s hs
  · rw [e]
    simp only
    split
    · exact hc.dropSize _ (hc.consume s _ hs)
    · exact hc.readSize (hc.rhdr _ _ (hc.consume s _ hs))

/-- A waiting read that goes on ends in one of the same ways. -/
theorem ReadClosed.resumeAt {t : Transfer} (hc : ReadClosed t.filter W P Q) (hs : P s)
    (ht : W t.phase s.scratch.rhdr) : Q (resumeAt t s) := by
  unfold Sys2Proof.Machine.resumeAt
  match h : t.phase with
  | .header => exact hc.readHeader hs
  | .size => exact hc.readSize hs
  | .payload => exact hc.readPayload hs
  | .footer body => rw [h] at ht; exact hc.readFooter hs ht

end Sys2Proof.Machine
end

