-- ==== Sys2Proof/Tests/Slice0.lean ====
section
/-! SUPPORT. Tests, their expected values taken from spec/ by hand, and for every statement with
hypotheses a witness: a concrete state and operands that meet all of its hypotheses together. -/

open Sys2Proof Sys2Proof.Machine

namespace Sys2Proof.Tests

/-! ## Small states -/

/-- A fresh block whose source is `bytes`, with the coming `answers`. -/
def reader (bytes : List Byte) (answers : List Answer := []) : State :=
  { State.reset with source := ⟨bytes, 0, answers⟩ }

/-- A fresh block with operands on its ports. -/
def ported (o : Operands) : State := { State.reset with ops := o }

/-- A block whose host issues one command next. -/
def issuing (w : CmdWord) (attach : Option Source := none) : State :=
  { State.reset with pending := [⟨w, State.reset.ops, attach⟩] }

/-- A block that has taken a fault with cause `c`. -/
def faulted (c : BitVec 4) : State := { State.reset with fault := true, fcause := c }

/-- The response of a step. -/
def responseOf : Host.Outcome State Fault Refusal → Option Response
  | .next t => t.response
  | _ => none

/-- Response, counters and cursor of a step. -/
def readOf : Host.Outcome State Fault Refusal → Option (Option Response × Counters × Nat)
  | .next t => some (t.response, t.counters, t.source.pos)
  | _ => none

/-- Fault record, and the cause of the response. -/
def faultOf : Host.Outcome State Fault Refusal → Option (Bool × BitVec 4 × Option (BitVec 4))
  | .next t => some (t.fault, t.fcause, t.response.map (·.cause))
  | _ => none

/-- The frame of V-RD1: payload 0B 15 1F. -/
def frame3 : List Byte :=
  [0x00, 0x0F, 0x00, 0x00, 0x00, 0x45, 0x67, 0x89, 0x0B, 0x15, 0x1F, 0xA5, 0xA5, 0xA5, 0xA5]

/-- The header of `frame3`. -/
def hdr3 : Bytes8 := ⟨0x00, 0x0F, 0x00, 0x00, 0x00, 0x45, 0x67, 0x89⟩

/-- The frame of V-RD13: declared length 12. -/
def frame0 : List Byte := [0x00, 0x0C, 0x00, 0x00, 0x00, 0x00, 0x00, 0x00, 0xA5, 0xA5, 0xA5, 0xA5]

/-- The header of `frame0`. -/
def hdr0 : Bytes8 := ⟨0x00, 0x0C, 0x00, 0x00, 0x00, 0x00, 0x00, 0x00⟩

/-- V-RD6: a declared length of 20 with 19 bytes there. -/
def oversize : List Byte := [0x00, 0x14, 0x00, 0x00, 0x00, 0x00, 0x00, 0x00] ++ List.replicate 11 0x01

/-- The header of V-RD6 and V-RD7. -/
def hdr20 : Bytes8 := ⟨0x00, 0x14, 0x00, 0x00, 0x00, 0x00, 0x00, 0x00⟩

/-- A value a full counter of 32 bits holds. -/
def full : Nat := 4294967295

/-- A block at work that meets the invariant: counters moved, a read waiting at its footer. -/
def waitingBlock : State :=
  { reader frame3 [.stall] with
    counters := ⟨4, 3, 1, 2⟩
    scratch := { State.reset.scratch with rhdr := hdr3 }
    source := ⟨frame3, 11, [.stall]⟩
    transfer := some ⟨none, .footer [0x0B, 0x15, 0x1F]⟩ }

/-! ## Well-formedness and decoding -/

/-- 30_encoding.md R60: `CNTRD` 5, 6 and 7 are refused by the check. -/
theorem test_wellFormed_refuses_reserved_register :
    ¬ (Instr.cntrd 5).WellFormed ∧ ¬ (Instr.cntrd 6).WellFormed ∧ ¬ (Instr.cntrd 7).WellFormed := by
  decide

/-- 10_state.md R17: register numbers 0 to 4 are legal, and so is every other command. -/
theorem test_wellFormed_accepts :
    (Instr.cntrd 0).WellFormed ∧ (Instr.cntrd 4).WellFormed ∧ (Instr.readc 0xFF).WellFormed ∧
    Instr.read.WellFormed ∧ Instr.encode.WellFormed ∧ Instr.plen.WellFormed ∧
    Instr.hdrenc.WellFormed ∧ Instr.ftrgen.WellFormed ∧ Instr.hdrdec.WellFormed ∧
    Instr.szchk.WellFormed ∧ Instr.ftrchk.WellFormed ∧ Instr.catchk.WellFormed := by decide

/-- 30_encoding.md R59: each row's word, bit by bit: arg8, zero, op. -/
theorem test_decode_units :
    decode 0b00000000_0000_0001 = .ok .hdrenc ∧ decode 0b00000000_0000_0010 = .ok .ftrgen ∧
    decode 0b00000000_0000_0011 = .ok .hdrdec ∧ decode 0b00000000_0000_0100 = .ok .szchk ∧
    decode 0b00000000_0000_0101 = .ok .plen ∧ decode 0b00000000_0000_0110 = .ok .ftrchk ∧
    decode 0b00000000_0000_0111 = .ok .catchk := by decide

/-- 30_encoding.md R59: the frame commands and the counter access, bit by bit. -/
theorem test_decode_frame_and_counter :
    decode 0b00000000_0000_1000 = .ok .encode ∧ decode 0b00000000_0000_1001 = .ok .read ∧
    decode 0b00110000_0000_1010 = .ok (.readc 0x30) ∧ decode 0b00000011_0000_1011 = .ok (.cntrd 3) := by
  decide

/-- 30_encoding.md R60: the words refused, by name. -/
theorem test_decode_refuses :
    decode 0x0000 = .error .noSuchOp ∧ decode 0x000F = .error .noSuchOp ∧
    decode 0x0019 = .error .zeroFieldSet ∧ decode 0x001A = .error .zeroFieldSet ∧
    decode 0x0109 = .error .argumentSet ∧ decode 0x0B0B = .error .indexBitsSet := by decide

/-- 30_encoding.md R58: encoded words written out. -/
theorem test_encode_words :
    Sys2Proof.encode .szchk = 0x0004 ∧ Sys2Proof.encode (.readc 0xC8) = 0xC80A ∧
    Sys2Proof.encode (.cntrd 4) = 0x040B := by decide

/-- A table word of 16 bits decodes; an illegal one does not. -/
theorem test_decodeTableWord :
    decodeTableWord 16 0x0A = some (.readc 0) ∧ decodeTableWord 16 0x040B = some (.cntrd 4) ∧
    decodeTableWord 16 0xC = none := by decide

/-! ## One step of each command -/

/-- V-HE2: byte order of the time. -/
theorem test_hdrenc_byte_order :
    responseOf (exec .hdrenc (ported { State.reset.ops with n := 3, t := 0x123456 })) =
      some ⟨true, 0, .header ⟨0x00, 0x0F, 0x00, 0x00, 0x00, 0x12, 0x34, 0x56⟩⟩ := by decide

/-- V-HE8: the length wraps. -/
theorem test_hdrenc_length_wraps :
    responseOf (exec .hdrenc (ported { State.reset.ops with n := 70000, t := 0xABCDEF })) =
      some ⟨true, 0, .header ⟨0x11, 0x7C, 0x00, 0x00, 0x00, 0xAB, 0xCD, 0xEF⟩⟩ := by decide

/-- V-FG1. -/
theorem test_ftrgen :
    responseOf (exec .ftrgen State.reset) = some ⟨true, 0, .footer ⟨0xA5, 0xA5, 0xA5, 0xA5⟩⟩ := by decide

/-- V-HD4: reserved bytes ignored; 0x80 is 128. -/
theorem test_hdrdec_unsigned :
    responseOf (exec .hdrdec (ported { State.reset.ops with
      h := ⟨0x01, 0x00, 0xAA, 0xBB, 0xCC, 0x80, 0x00, 0x00⟩ })) =
      some ⟨true, 0, .fields 256 8388608⟩ := by decide

/-- V-HD1. -/
theorem test_hdrdec_weights :
    responseOf (exec .hdrdec (ported { State.reset.ops with
      h := ⟨0x00, 0x0F, 0x00, 0x00, 0x00, 0x12, 0x34, 0x56⟩ })) =
      some ⟨true, 0, .fields 15 1193046⟩ := by decide

/-- V-SZ1, V-SZ2: equality passes, one more does not. -/
theorem test_szchk_equality :
    responseOf (exec .szchk (ported { State.reset.ops with flen := 15, avail := 15 })) =
      some ⟨true, 0, .sizeOk true⟩ ∧
    responseOf (exec .szchk (ported { State.reset.ops with flen := 16, avail := 15 })) =
      some ⟨true, 0, .sizeOk false⟩ := by decide

/-- V-SZ8: `avail` wider than 16 bits. -/
theorem test_szchk_wide :
    responseOf (exec .szchk (ported { State.reset.ops with flen := 65535, avail := 70000 })) =
      some ⟨true, 0, .sizeOk true⟩ := by decide

/-- V-PL4, V-PL9: the two ends of the range. -/
theorem test_plen_range :
    responseOf (exec .plen (ported { State.reset.ops with flen := 12 })) =
      some ⟨true, 0, .length false 0⟩ ∧
    responseOf (exec .plen (ported { State.reset.ops with flen := 65535 })) =
      some ⟨true, 0, .length false 65523⟩ := by decide

/-- V-PL3: 11 is `under`, whatever the free value is. -/
theorem test_plen_under : ∃ v : BitVec 16,
    responseOf (exec .plen (ported { State.reset.ops with flen := 11 })) =
      some ⟨true, 0, .length true v⟩ := ⟨_, rfl⟩

/-- V-FC1, V-FC3. -/
theorem test_ftrchk_one_bit_off :
    responseOf (exec .ftrchk (ported { State.reset.ops with f := ⟨0xA5, 0xA5, 0xA5, 0xA5⟩ })) =
      some ⟨true, 0, .footerValid true⟩ ∧
    responseOf (exec .ftrchk (ported { State.reset.ops with f := ⟨0xA5, 0x25, 0xA5, 0xA5⟩ })) =
      some ⟨true, 0, .footerValid false⟩ := by decide

/-- V-FC5: byte 3. -/
theorem test_ftrchk_last_byte :
    responseOf (exec .ftrchk (ported { State.reset.ops with f := ⟨0xA5, 0xA5, 0xA5, 0x00⟩ })) =
      some ⟨true, 0, .footerValid false⟩ := by decide

/-- V-CC5, V-CC6: patterns, the top bit counts. -/
theorem test_catchk_patterns :
    responseOf (exec .catchk (ported { State.reset.ops with p0 := 0xC8, cat := 0xC8 })) =
      some ⟨true, 0, .categoryMatch true⟩ ∧
    responseOf (exec .catchk (ported { State.reset.ops with p0 := 0x30, cat := 0xB0 })) =
      some ⟨true, 0, .categoryMatch false⟩ := by decide

/-- V-EN2: the source's scenario. -/
theorem test_encode_scenario :
    responseOf (exec .encode (ported { State.reset.ops with
      pPresent := true, p := [0x0B, 0x15, 0x1F], now := 0x0123456789 })) =
      some ⟨true, 0, .frame frame3⟩ := by decide

/-- V-EN6, V-EN7: a present empty payload, and an absent one whose `p` is ignored. -/
theorem test_encode_nothing :
    responseOf (exec .encode (ported { State.reset.ops with pPresent := true })) =
      some ⟨false, 1, .absent⟩ ∧
    responseOf (exec .encode (ported { State.reset.ops with pPresent := false, p := [0x42] })) =
      some ⟨false, 1, .absent⟩ := by decide

/-- V-RD1: success. -/
theorem test_read_success :
    readOf (exec .read (reader frame3)) =
      some (some ⟨true, 0, .payload [0x0B, 0x15, 0x1F]⟩, ⟨1, 0, 0, 0⟩, 15) := by decide

/-- V-RD6: only the header of an oversize frame is consumed. -/
theorem test_read_oversize :
    readOf (exec .read (reader oversize)) =
      some (some ⟨false, 2, .absent⟩, ⟨0, 1, 1, 0⟩, 8) := by decide

/-- V-RC2: a mismatch counts a frame read and no drop. -/
theorem test_readc_filtered :
    readOf (exec (.readc 0x31) (reader [0x00, 0x0E, 0x00, 0x00, 0x00, 0x00, 0x00, 0x07, 0x30, 0x09,
      0xA5, 0xA5, 0xA5, 0xA5])) = some (some ⟨false, 5, .absent⟩, ⟨1, 0, 0, 0⟩, 14) := by decide

/-- V-RC4: a bad footer wins over a wrong category. -/
theorem test_readc_footer_first :
    readOf (exec (.readc 0x31) (reader [0x00, 0x0E, 0x00, 0x00, 0x00, 0x00, 0x00, 0x07, 0x30, 0x09,
      0xA5, 0xA5, 0xA5, 0x00])) = some (some ⟨false, 3, .absent⟩, ⟨0, 1, 0, 1⟩, 14) := by decide

/-- V-CR2: the four counters and the status word. -/
theorem test_cntrd_registers :
    responseOf (exec (.cntrd 0) { State.reset with counters := ⟨1, 3, 2, 1⟩ }) =
      some ⟨true, 0, .value 1⟩ ∧
    responseOf (exec (.cntrd 1) { State.reset with counters := ⟨1, 3, 2, 1⟩ }) =
      some ⟨true, 0, .value 3⟩ ∧
    responseOf (exec (.cntrd 2) { State.reset with counters := ⟨1, 3, 2, 1⟩ }) =
      some ⟨true, 0, .value 2⟩ ∧
    responseOf (exec (.cntrd 3) { State.reset with counters := ⟨1, 3, 2, 1⟩ }) =
      some ⟨true, 0, .value 1⟩ ∧
    responseOf (exec (.cntrd 4) { State.reset with counters := ⟨1, 3, 2, 1⟩ }) =
      some ⟨true, 0, .value 0⟩ := by decide

/-- V-CR3: the fault record is readable after a fault. -/
theorem test_cntrd_fault_record :
    responseOf (exec (.cntrd 4) (faulted 9)) = some ⟨true, 0, .value 0x91⟩ := by decide

/-! ## Faults, the command port, waiting -/

/-- V-RD16, V-RC6, V-CR4 and an illegal word: each fault records its cause. -/
theorem test_faults_record_their_cause :
    faultOf (exec .read (reader [0x00, 0x08, 0x00, 0x00, 0x00, 0x00, 0x00, 0x00])) =
      some (true, 9, some 9) ∧
    faultOf (exec (.readc 0x05) (reader frame0)) = some (true, 11, some 11) ∧
    faultOf (exec (.cntrd 5) State.reset) = some (true, 8, some 8) ∧
    faultOf (step (issuing 0x0000)) = some (true, 8, some 8) := by decide

/-- V-RD21, and 60_exceptions.md R112: a full counter, a short body. -/
theorem test_faults_of_the_reader :
    faultOf (exec .read { reader frame3 with counters := ⟨full, 0, 0, 0⟩ }) =
      some (true, 10, some 10) ∧
    faultOf (exec .read (reader frame3 [.full, .full, .upTo 2])) = some (true, 12, some 12) := by decide

/-- 10_state.md R18: a second fault does not replace the first cause. -/
theorem test_fault_keeps_first_cause :
    faultOf (exec (.cntrd 6) (faulted 9)) = some (true, 9, some 8) := by decide

/-- V-RD20: a stream error at the header read, for either value of `IOERR_INC_DROPPED`. -/
theorem test_source_err_ends_command : ∃ t, exec .read (reader frame3 [.err]) = .next t ∧
    t.response = some ⟨false, 4, .absent⟩ ∧
    t.counters = ⟨0, if Config.ioErrIncDropped = true then 1 else 0, 0, 0⟩ := by
  refine ⟨ioError (reader frame3 [.err]).streamError, rfl, ?_⟩
  unfold ioError
  cases Config.ioErrIncDropped <;> exact ⟨rfl, rfl⟩

/-- 60_exceptions.md R121: no answer at the payload read: no response, no counter moved. -/
theorem test_source_silence_waits :
    readOf (exec .read (reader frame3 [.full, .full, .stall])) = some (none, ⟨0, 0, 0, 0⟩, 8) := by decide

/-- 60_exceptions.md R121: once the source answers, the waiting read ends. -/
theorem test_source_answer_resumes :
    readOf (step waitingBlock.sourceAnswers) =
      some (some ⟨true, 0, .payload [0x0B, 0x15, 0x1F]⟩, ⟨5, 3, 1, 2⟩, 15) := by decide

/-- A placed word is the next command run after reset: `READ` meets the empty source (V-RD3). -/
theorem test_placed_word_runs :
    readOf (step (State.reset.withFetchWord 16 0x0009)) =
      some (some ⟨false, 2, .absent⟩, ⟨0, 1, 1, 0⟩, 0) := by decide

/-- 30_encoding.md R66, 10_state.md R22: the step accepts the next request with its stream. -/
theorem test_step_takes_attached_stream :
    readOf (step (issuing 0x0009 (some ⟨frame3, 0, []⟩))) =
      some (some ⟨true, 0, .payload [0x0B, 0x15, 0x1F]⟩, ⟨1, 0, 0, 0⟩, 15) := by decide

/-! ## Witnesses: the hypotheses of each statement are met -/

theorem witness_StepRunsDecodedCommand :
    (issuing 0x0009 (some ⟨frame3, 0, []⟩)).transfer = none ∧
    (issuing 0x0009 (some ⟨frame3, 0, []⟩)).pending =
      [⟨0x0009, State.reset.ops, some ⟨frame3, 0, []⟩⟩] ∧
    decode 0x0009 = .ok .read := by decide

theorem witness_PlacedWordRunsNext : decode 0x040B = .ok (.cntrd 4) := by decide

theorem witness_BlockWaitsForCommand :
    State.reset.transfer = none ∧ State.reset.pending = [] := by decide

/-- Each clause of `IllegalWord` at the ends of its range. -/
theorem witness_IllegalWord_clauses :
    IllegalWord 0x0000 ∧ IllegalWord 0x000C ∧ IllegalWord 0x000F ∧ IllegalWord 0x0011 ∧
    IllegalWord 0x00FA ∧ IllegalWord 0x0109 ∧ IllegalWord 0xFF01 ∧ IllegalWord 0x050B ∧
    IllegalWord 0xFF0B := by
  refine ⟨?_, ?_, ?_, ?_, ?_, ?_, ?_, ?_, ?_⟩ <;> (unfold IllegalWord; decide)

/-- The legal words beside them. -/
theorem witness_IllegalWord_beside :
    ¬ IllegalWord 0x0001 ∧ ¬ IllegalWord 0xFF0A ∧ ¬ IllegalWord 0x000A ∧
    ¬ IllegalWord 0x040B ∧ ¬ IllegalWord 0x000B := by
  refine ⟨?_, ?_, ?_, ?_, ?_⟩ <;> (unfold IllegalWord; decide)

theorem witness_IllegalWordTakesFault :
    (issuing 0x050B).transfer = none ∧
    (issuing 0x050B).pending = [⟨0x050B, State.reset.ops, none⟩] ∧ IllegalWord 0x050B := by
  unfold IllegalWord; decide

theorem witness_EncodeOfDecodedWord : decode 0xFF0A = .ok (.readc 0xFF) := by decide

theorem witness_HdrencAssemblesHeader : State.reset.fault = false := by decide

theorem witness_FtrgenGivesSignature : State.reset.fault = false := by decide

theorem witness_HdrdecExtractsFields : State.reset.fault = false := by decide

theorem witness_SzchkComparesUnsigned : State.reset.fault = false := by decide

/-- The two clauses of `PLEN` where they meet, and at the ends. -/
theorem witness_PlenSubtractsOverhead :
    State.reset.fault = false ∧ 12 ≤ (12 : BitVec 16).toNat ∧ (11 : BitVec 16).toNat < 12 ∧
    12 ≤ (0xFFFF : BitVec 16).toNat ∧ (0 : BitVec 16).toNat < 12 := by decide

theorem witness_FtrchkChecksEachByte : State.reset.fault = false := by decide

theorem witness_CatchkComparesPatterns : State.reset.fault = false := by decide

/-- Two states with the same operands that differ elsewhere; the excluded corner is one of `PLEN` alone. -/
theorem witness_ReaderUnitsArePure :
    Instr.szchk ∈ [Instr.hdrdec, .szchk, .plen, .ftrchk, .catchk] ∧
    State.reset.fault = false ∧ (reader frame3).fault = false ∧
    (reader frame3).ops = State.reset.ops ∧ reader frame3 ≠ State.reset ∧
    ¬ (Instr.szchk = .plen ∧ State.reset.ops.flen.toNat < 12) := by decide

/-- HDRENC of the largest truthful length, and the states its results are handed to (V-HE4, V-PL9). -/
theorem witness_HeaderUnitsAreInverse :
    (ported { State.reset.ops with n := 65523 }).fault = false ∧
    (ported { State.reset.ops with n := 65523 }).ops.n ≤ 65523 ∧
    (ported { State.reset.ops with h := encodeHeader 65523 0 }).fault = false ∧
    (ported { State.reset.ops with h := encodeHeader 65523 0 }).ops.h =
      ⟨0xFF, 0xFF, 0, 0, 0, 0, 0, 0⟩ ∧
    (ported { State.reset.ops with flen := 65535 }).fault = false ∧
    (ported { State.reset.ops with f := ⟨0xA5, 0xA5, 0xA5, 0xA5⟩ }).fault = false := by decide

/-- An absent payload, an empty one, and the smallest one that is encoded. -/
theorem witness_EncodeWrapsPayload :
    State.reset.fault = false ∧ State.reset.ops.pPresent = false ∧
    (ported { State.reset.ops with pPresent := true }).ops.p.length = 0 ∧
    (ported { State.reset.ops with pPresent := true, p := [0x42] }).ops.pPresent = true ∧
    1 ≤ (ported { State.reset.ops with pPresent := true, p := [0x42] }).ops.p.length := by decide

theorem witness_EncodedFrameHasItsLayout :
    (ported { State.reset.ops with pPresent := true, p := [0x42] }).fault = false ∧
    (ported { State.reset.ops with pPresent := true, p := [0x42] }).ops.pPresent = true ∧
    1 ≤ (ported { State.reset.ops with pPresent := true, p := [0x42] }).ops.p.length := by decide

/-- Two encodings of one payload at two times. -/
theorem witness_FramesDifferOnlyInTime :
    (ported { State.reset.ops with pPresent := true, p := [0x42], now := 1 }).fault = false ∧
    (ported { State.reset.ops with pPresent := true, p := [0x42], now := 0x1000001 }).fault = false ∧
    (ported { State.reset.ops with pPresent := true, p := [0x42], now := 1 }).ops.pPresent = true ∧
    (ported { State.reset.ops with pPresent := true, p := [0x42], now := 0x1000001 }).ops.pPresent =
      true ∧
    1 ≤ (ported { State.reset.ops with pPresent := true, p := [0x42], now := 1 }).ops.p.length ∧
    (ported { State.reset.ops with pPresent := true, p := [0x42], now := 0x1000001 }).ops.p =
      (ported { State.reset.ops with pPresent := true, p := [0x42], now := 1 }).ops.p := by decide

/-- A fresh reader's source is the plain one. -/
theorem reader_plain (bytes : List Byte) : (reader bytes).PlainSource := ⟨rfl, Nat.zero_le _⟩

theorem witness_SourceGivesBytesFromCursor : (reader frame3).PlainSource := reader_plain _

/-- What follows the header of `frame3`. -/
def rest3 : List Byte := [0x0B, 0x15, 0x1F, 0xA5, 0xA5, 0xA5, 0xA5]

/-- `frame3` from a source that gives each access exactly what it asks for. -/
def pieces : List Answer := [.upTo 8, .upTo 7, .upTo 3, .upTo 4]

/-- `frame3` in the plain source. -/
theorem frame3_arrives :
    (reader frame3).FrameArrives hdr3 [0x0B, 0x15, 0x1F] ⟨0xA5, 0xA5, 0xA5, 0xA5⟩ [] [] :=
  (reader_plain _).frameArrives (by decide) (by decide)

/-- `frame3` in the exact pieces. -/
theorem frame3_arrives_in_pieces :
    (reader frame3 pieces).FrameArrives hdr3 [0x0B, 0x15, 0x1F] ⟨0xA5, 0xA5, 0xA5, 0xA5⟩ [] [] :=
  ⟨by decide, [.upTo 4], 4, ⟨7, [.upTo 3, .upTo 4],
    ⟨[.upTo 7, .upTo 3, .upTo 4], ⟨by decide, 8, by decide, answered_upTo 8 15 _⟩, answered_upTo 7 7 _⟩,
    by decide, by decide, .inr ⟨by decide, 3, by decide, answered_upTo 3 7 _⟩⟩, by decide,
    answered_upTo 4 4 _⟩

/-- `frame0` in the plain source. -/
theorem frame0_arrives : (reader frame0).FrameArrives hdr0 [] ⟨0xA5, 0xA5, 0xA5, 0xA5⟩ [] [] :=
  (reader_plain _).frameArrives (by decide) (by decide)

theorem witness_ReadReturnsSoundFrame :
    (reader frame3).fault = false ∧
    (reader frame3).FrameArrives hdr3 [0x0B, 0x15, 0x1F] ⟨0xA5, 0xA5, 0xA5, 0xA5⟩ [] [] ∧
    (reader frame3).counters.framesRead ≠ 2 ^ (reader frame3).cw - 1 ∧
    (reader frame3 pieces).fault = false ∧
    (reader frame3 pieces).FrameArrives hdr3 [0x0B, 0x15, 0x1F] ⟨0xA5, 0xA5, 0xA5, 0xA5⟩ [] [] ∧
    (reader frame3 pieces).counters.framesRead ≠ 2 ^ (reader frame3 pieces).cw - 1 :=
  ⟨by decide, frame3_arrives, by decide, by decide, frame3_arrives_in_pieces, by decide⟩

theorem witness_ReadcFiltersByCategory :
    (reader frame3).fault = false ∧
    (reader frame3).FrameArrives hdr3 (0x0B :: [0x15, 0x1F]) ⟨0xA5, 0xA5, 0xA5, 0xA5⟩ [] [] ∧
    (reader frame3).counters.framesRead ≠ 2 ^ (reader frame3).cw - 1 :=
  ⟨by decide, frame3_arrives, by decide⟩

theorem witness_DeclaredTwelveIsEmptyPayload :
    (reader frame0).fault = false ∧
    (reader frame0).FrameArrives hdr0 [] ⟨0xA5, 0xA5, 0xA5, 0xA5⟩ [] [] ∧
    (reader frame0).counters.framesRead ≠ 2 ^ (reader frame0).cw - 1 :=
  ⟨by decide, frame0_arrives, by decide⟩

/-- Seven bytes left, none left, and a source that gives 7 bytes of a whole frame. -/
theorem witness_ShortHeaderIsSizeDrop :
    (reader (List.replicate 7 0)).fault = false ∧
    Answered (reader (List.replicate 7 0)).source.answers (reader (List.replicate 7 0)).upcoming.length
      7 [] ∧
    Answered (reader []).source.answers (reader []).upcoming.length 0 [] ∧
    (reader frame3 [.upTo 7]).fault = false ∧
    Answered (reader frame3 [.upTo 7]).source.answers (reader frame3 [.upTo 7]).upcoming.length 7 [] ∧
    7 < 8 ∧ 0 < 8 ∧
    (reader frame3 [.upTo 7]).counters.framesDropped ≠ 2 ^ (reader frame3 [.upTo 7]).cw - 1 ∧
    (reader frame3 [.upTo 7]).counters.droppedForInvalidSize ≠ 2 ^ (reader frame3 [.upTo 7]).cw - 1 ∧
    (reader (List.replicate 7 0)).counters.framesDropped ≠
      2 ^ (reader (List.replicate 7 0)).cw - 1 ∧
    (reader (List.replicate 7 0)).counters.droppedForInvalidSize ≠
      2 ^ (reader (List.replicate 7 0)).cw - 1 :=
  ⟨by decide, answered_plain 7, answered_plain 0, by decide, answered_upTo 7 15 _, by decide, by decide,
    by decide, by decide, by decide, by decide⟩

/-- `oversize` in the plain source: all that follows the header is reported. -/
theorem oversize_known : (reader oversize).SizeKnown hdr20 (List.replicate 11 0x01) 11 [] :=
  (reader_plain _).sizeKnown (by decide)

/-- `frame3` whose tail is not reported yet: 6 of the 7 bytes after its header. -/
theorem frame3_known_short : (reader frame3 [.full, .upTo 6]).SizeKnown hdr3 rest3 6 [] :=
  ⟨[.upTo 6], ⟨by decide, 15, by decide, answered_full 15 _⟩, answered_upTo 6 7 _⟩

theorem witness_OversizeLengthIsSizeDrop :
    (reader oversize).fault = false ∧
    (reader oversize).SizeKnown hdr20 (List.replicate 11 0x01) 11 [] ∧ 8 + 11 < declared hdr20 ∧
    (reader oversize).counters.framesDropped ≠ 2 ^ (reader oversize).cw - 1 ∧
    (reader oversize).counters.droppedForInvalidSize ≠ 2 ^ (reader oversize).cw - 1 ∧
    (reader frame3 [.full, .upTo 6]).fault = false ∧
    (reader frame3 [.full, .upTo 6]).SizeKnown hdr3 rest3 6 [] ∧ 8 + 6 < declared hdr3 ∧
    (reader frame3 [.full, .upTo 6]).counters.framesDropped ≠
      2 ^ (reader frame3 [.full, .upTo 6]).cw - 1 ∧
    (reader frame3 [.full, .upTo 6]).counters.droppedForInvalidSize ≠
      2 ^ (reader frame3 [.full, .upTo 6]).cw - 1 :=
  ⟨by decide, oversize_known, by decide, by decide, by decide, by decide, frame3_known_short, by decide,
    by decide, by decide⟩

theorem witness_BadFooterIsFooterDrop :
    (reader (oversize ++ [0x01])).fault = false ∧
    (reader (oversize ++ [0x01])).FrameArrives hdr20 (List.replicate 8 0x01)
      ⟨0x01, 0x01, 0x01, 0x01⟩ [] [] ∧
    ¬ ((0x01 : Byte) = 165 ∧ (0x01 : Byte) = 165 ∧ (0x01 : Byte) = 165 ∧ (0x01 : Byte) = 165) ∧
    (reader (oversize ++ [0x01])).counters.framesDropped ≠
      2 ^ (reader (oversize ++ [0x01])).cw - 1 ∧
    (reader (oversize ++ [0x01])).counters.droppedForInvalidFooter ≠
      2 ^ (reader (oversize ++ [0x01])).cw - 1 :=
  ⟨by decide, (reader_plain _).frameArrives (by decide) (by decide), by decide, by decide, by decide⟩

/-- A declared length of 8 with nothing after the header, and of 11 with three bytes after it. -/
theorem witness_ShortDeclaredLengthFaults :
    (reader [0x00, 0x08, 0, 0, 0, 0, 0, 0]).fault = false ∧
    (reader [0x00, 0x08, 0, 0, 0, 0, 0, 0]).SizeKnown ⟨0x00, 0x08, 0, 0, 0, 0, 0, 0⟩ [] 0 [] ∧
    declared ⟨0x00, 0x08, 0, 0, 0, 0, 0, 0⟩ < 12 ∧ declared ⟨0x00, 0x08, 0, 0, 0, 0, 0, 0⟩ ≤ 8 + 0 ∧
    (reader [0x00, 0x0B, 0, 0, 0, 0, 0, 0, 1, 2, 3]).fault = false ∧
    (reader [0x00, 0x0B, 0, 0, 0, 0, 0, 0, 1, 2, 3]).SizeKnown ⟨0x00, 0x0B, 0, 0, 0, 0, 0, 0⟩
      [1, 2, 3] 3 [] ∧
    declared ⟨0x00, 0x0B, 0, 0, 0, 0, 0, 0⟩ < 12 ∧ declared ⟨0x00, 0x0B, 0, 0, 0, 0, 0, 0⟩ ≤ 8 + 3 :=
  ⟨by decide, (reader_plain _).sizeKnown (by decide), by decide, by decide, by decide,
    (reader_plain _).sizeKnown (by decide), by decide, by decide⟩

/-- A fresh reader whose counters stand at `c`. -/
def counting (bytes : List Byte) (c : Counters) (answers : List Answer := []) : State :=
  { reader bytes answers with counters := c }

theorem counting_plain (bytes : List Byte) (c : Counters) : (counting bytes c).PlainSource :=
  ⟨rfl, Nat.zero_le _⟩

/-- Clause 1 of `FullCounterFaults`: nothing left, and 7 bytes given of a whole frame, each of the two
counters full. -/
theorem witness_FullCounterFaults_short :
    (counting [] ⟨0, full, 0, 0⟩).fault = false ∧
    Answered (counting [] ⟨0, full, 0, 0⟩).source.answers
      (counting [] ⟨0, full, 0, 0⟩).upcoming.length 0 [] ∧ 0 < 8 ∧
    (counting [] ⟨0, full, 0, 0⟩).counters.framesDropped =
      2 ^ (counting [] ⟨0, full, 0, 0⟩).cw - 1 ∧
    (counting frame3 ⟨0, 0, full, 0⟩ [.upTo 7]).fault = false ∧
    Answered (counting frame3 ⟨0, 0, full, 0⟩ [.upTo 7]).source.answers
      (counting frame3 ⟨0, 0, full, 0⟩ [.upTo 7]).upcoming.length 7 [] ∧ 7 < 8 ∧
    (counting frame3 ⟨0, 0, full, 0⟩ [.upTo 7]).counters.droppedForInvalidSize =
      2 ^ (counting frame3 ⟨0, 0, full, 0⟩ [.upTo 7]).cw - 1 :=
  ⟨by decide, answered_plain 0, by decide, by decide, by decide, answered_upTo 7 15 _, by decide,
    by decide⟩

/-- Clause 2: a declared length above what is reported, in the plain source and in one that reports less
than it holds. -/
theorem witness_FullCounterFaults_oversize :
    (counting oversize ⟨0, full, 0, 0⟩).fault = false ∧
    (counting oversize ⟨0, full, 0, 0⟩).SizeKnown hdr20 (List.replicate 11 0x01) 11 [] ∧
    8 + 11 < declared hdr20 ∧
    (counting oversize ⟨0, full, 0, 0⟩).counters.framesDropped =
      2 ^ (counting oversize ⟨0, full, 0, 0⟩).cw - 1 ∧
    (counting frame3 ⟨0, 0, full, 0⟩ [.full, .upTo 6]).fault = false ∧
    (counting frame3 ⟨0, 0, full, 0⟩ [.full, .upTo 6]).SizeKnown hdr3 rest3 6 [] ∧
    8 + 6 < declared hdr3 ∧
    (counting frame3 ⟨0, 0, full, 0⟩ [.full, .upTo 6]).counters.droppedForInvalidSize =
      2 ^ (counting frame3 ⟨0, 0, full, 0⟩ [.full, .upTo 6]).cw - 1 :=
  ⟨by decide, (counting_plain _ _).sizeKnown (by decide), by decide, by decide, by decide,
    frame3_known_short, by decide, by decide⟩

/-- Clause 3, a bad footer. -/
theorem witness_FullCounterFaults_bad_footer :
    (counting (oversize ++ [0x01]) ⟨0, 0, 0, full⟩).fault = false ∧
    (counting (oversize ++ [0x01]) ⟨0, 0, 0, full⟩).FrameArrives hdr20 (List.replicate 8 0x01)
      ⟨0x01, 0x01, 0x01, 0x01⟩ [] [] ∧
    (⟨0x01, 0x01, 0x01, 0x01⟩ : Bytes4) ≠ ⟨165, 165, 165, 165⟩ ∧
    (counting (oversize ++ [0x01]) ⟨0, 0, 0, full⟩).counters.droppedForInvalidFooter =
      2 ^ (counting (oversize ++ [0x01]) ⟨0, 0, 0, full⟩).cw - 1 :=
  ⟨by decide, (counting_plain _ _).frameArrives (by decide) (by decide), by decide, by decide⟩

/-- Clause 3, a good footer. -/
theorem witness_FullCounterFaults_good_footer :
    (counting frame3 ⟨full, 0, 0, 0⟩ pieces).fault = false ∧
    (counting frame3 ⟨full, 0, 0, 0⟩ pieces).FrameArrives hdr3 [0x0B, 0x15, 0x1F]
      ⟨165, 165, 165, 165⟩ [] [] ∧
    [0x0B, 0x15, (0x1F : Byte)] ≠ [] ∧
    (counting frame3 ⟨full, 0, 0, 0⟩ pieces).counters.framesRead =
      2 ^ (counting frame3 ⟨full, 0, 0, 0⟩ pieces).cw - 1 :=
  ⟨by decide, frame3_arrives_in_pieces, by decide, by decide⟩

/-- `Err` at the header read. -/
theorem err_at_header : (reader frame3 [.err]).MeetsErr [] := .inl (by decide)

/-- `Err` at the availability query. -/
theorem err_at_query : (reader frame3 [.full, .err]).MeetsErr [] :=
  .inr (.inl ⟨hdr3, rest3, by decide, 15, by decide, answered_full 15 _⟩)

/-- `Err` at the payload read. -/
theorem err_at_payload : (reader frame3 [.full, .full, .err]).MeetsErr [] :=
  .inr (.inr (.inl ⟨hdr3, rest3, 7,
    ⟨[.full, .err], ⟨by decide, 15, by decide, answered_full 15 _⟩, answered_full 7 _⟩, by decide,
    by decide⟩))

/-- `Err` at the footer read. -/
theorem err_at_footer : (reader frame3 [.full, .full, .full, .err]).MeetsErr [] :=
  .inr (.inr (.inr ⟨hdr3, rest3, 7, [.full, .err],
    ⟨[.full, .full, .err], ⟨by decide, 15, by decide, answered_full 15 _⟩, answered_full 7 _⟩, by decide,
    by decide, .inr ⟨by decide, 7, by decide, answered_full 7 _⟩⟩))

/-- `Err` at the footer read of a declared length of 12, the third access of the source. -/
theorem err_at_empty : (reader frame0 [.full, .full, .err]).MeetsErr [] :=
  .inr (.inr (.inr ⟨hdr0, [0xA5, 0xA5, 0xA5, 0xA5], 4, [.err],
    ⟨[.full, .err], ⟨by decide, 12, by decide, answered_full 12 _⟩, answered_full 4 _⟩, by decide,
    by decide, .inl ⟨by decide, rfl⟩⟩))

theorem witness_StreamErrorEndsRead :
    (reader frame3 [.err]).fault = false ∧ (reader frame3 [.err]).MeetsErr [] ∧
    (reader frame3 [.full, .err]).MeetsErr [] ∧ (reader frame3 [.full, .full, .err]).MeetsErr [] ∧
    (reader frame3 [.full, .full, .full, .err]).MeetsErr [] ∧
    (reader frame0 [.full, .full, .err]).MeetsErr [] ∧
    (Config.ioErrIncDropped = true →
      (reader frame3 [.err]).counters.framesDropped ≠ 2 ^ (reader frame3 [.err]).cw - 1) :=
  ⟨by decide, err_at_header, err_at_query, err_at_payload, err_at_footer, err_at_empty,
    fun _ => by decide⟩

/-- A full `framesDropped` at `Err` of the header read and of the footer read. -/
theorem witness_StreamErrorAtFullCounter :
    (counting frame3 ⟨0, full, 0, 0⟩ [.err]).fault = false ∧
    (counting frame3 ⟨0, full, 0, 0⟩ [.err]).MeetsErr [] ∧
    (counting frame3 ⟨0, full, 0, 0⟩ [.err]).counters.framesDropped =
      2 ^ (counting frame3 ⟨0, full, 0, 0⟩ [.err]).cw - 1 ∧
    (counting frame3 ⟨0, full, 0, 0⟩ [.full, .full, .full, .err]).MeetsErr [] :=
  ⟨by decide, err_at_header, by decide, err_at_footer⟩

/-- A payload read one byte short. -/
theorem short_payload : (reader frame3 [.full, .full, .upTo 2]).MeetsShortBody :=
  .inl ⟨hdr3, rest3, 7, [.upTo 2], 2, [],
    ⟨[.full, .upTo 2], ⟨by decide, 15, by decide, answered_full 15 _⟩, answered_full 7 _⟩, by decide,
    by decide, answered_upTo 2 7 _, by decide⟩

/-- A footer read one byte short. -/
theorem short_footer : (reader frame3 [.full, .full, .full, .upTo 3]).MeetsShortBody :=
  .inr ⟨hdr3, rest3, [.upTo 3], 3, [], ⟨7, [.full, .upTo 3],
    ⟨[.full, .full, .upTo 3], ⟨by decide, 15, by decide, answered_full 15 _⟩, answered_full 7 _⟩, by decide,
    by decide, .inr ⟨by decide, 7, by decide, answered_full 7 _⟩⟩, answered_upTo 3 4 _, by decide⟩

/-- A footer read one byte short after a declared length of 12. -/
theorem short_footer_of_empty : (reader frame0 [.full, .full, .upTo 3]).MeetsShortBody :=
  .inr ⟨hdr0, [0xA5, 0xA5, 0xA5, 0xA5], [.upTo 3], 3, [], ⟨4, [.upTo 3],
    ⟨[.full, .upTo 3], ⟨by decide, 12, by decide, answered_full 12 _⟩, answered_full 4 _⟩, by decide,
    by decide, .inl ⟨by decide, rfl⟩⟩, answered_upTo 3 4 _, by decide⟩

theorem witness_ShortBodyFaults :
    (reader frame3 [.full, .full, .upTo 2]).fault = false ∧
    (reader frame3 [.full, .full, .upTo 2]).MeetsShortBody ∧
    (reader frame3 [.full, .full, .full, .upTo 3]).MeetsShortBody ∧
    (reader frame0 [.full, .full, .upTo 3]).MeetsShortBody :=
  ⟨by decide, short_payload, short_footer, short_footer_of_empty⟩

theorem witness_PlainSourceNeverFailsRead :
    (reader oversize).fault = false ∧ (reader oversize).PlainSource := ⟨by decide, reader_plain _⟩

/-- A read that ends without a fault. -/
theorem witness_OutcomeDecidesCounters :
    ∃ t, exec (readCommand (some 0x0B)) (reader frame3) = .next t ∧ (reader frame3).fault = false ∧
      t.fault = false ∧ t.transfer = none := ⟨_, rfl, by decide, by decide, by decide⟩

theorem witness_OutcomeDecidesCursor :
    ∃ t a, exec (readCommand none) (reader oversize) = .next t ∧ (reader oversize).fault = false ∧
      t.fault = false ∧ (reader oversize).PlainSource ∧ t.response = some a :=
  ⟨_, _, rfl, by decide, by decide, reader_plain _, rfl⟩

theorem witness_ReadLeavesTheRest :
    ∃ t, exec (readCommand none) (reader frame3) = .next t ∧ (reader frame3).fault = false ∧
      t.fault = false := ⟨_, rfl, by decide, by decide⟩

/-- V-RD2's reserved bytes, with a byte before the frame; a payload of one byte. -/
theorem witness_ReservedBytesAreZeroAndIgnored :
    (ported { State.reset.ops with pPresent := true, p := [0x42] }).fault = false ∧
    (ported { State.reset.ops with pPresent := true, p := [0x42] }).ops.pPresent = true ∧
    1 ≤ (ported { State.reset.ops with pPresent := true, p := [0x42] }).ops.p.length ∧
    ({ State.reset with source := ⟨0x77 :: frame0, 1, []⟩ } : State).fault = false ∧
    0x77 :: frame0 = [0x77] ++ hdr0.toList ++ [0xA5, 0xA5, 0xA5, 0xA5] ∧ 1 = [(0x77 : Byte)].length ∧
    (⟨0x00, 0x0C, 0xDE, 0xAD, 0xBE, 0x00, 0x00, 0x00⟩ : Bytes8) =
      { hdr0 with b2 := 0xDE, b3 := 0xAD, b4 := 0xBE } := by decide

/-- The smallest payload of the round trip, and the reader of its frame (V-EN1). -/
theorem witness_RoundTripReturnsPayload :
    (ported { State.reset.ops with pPresent := true, p := [0x42] }).fault = false ∧
    (ported { State.reset.ops with pPresent := true, p := [0x42] }).ops.pPresent = true ∧
    1 ≤ (ported { State.reset.ops with pPresent := true, p := [0x42] }).ops.p.length ∧
    (ported { State.reset.ops with pPresent := true, p := [0x42] }).ops.p.length ≤ 65523 ∧
    (reader [0x00, 0x0D, 0, 0, 0, 0, 0, 0, 0x42, 0xA5, 0xA5, 0xA5, 0xA5]).fault = false ∧
    (reader [0x00, 0x0D, 0, 0, 0, 0, 0, 0, 0x42, 0xA5, 0xA5, 0xA5, 0xA5]).source =
      ⟨[0x00, 0x0D, 0, 0, 0, 0, 0, 0, 0x42, 0xA5, 0xA5, 0xA5, 0xA5], 0, []⟩ ∧
    (reader [0x00, 0x0D, 0, 0, 0, 0, 0, 0, 0x42, 0xA5, 0xA5, 0xA5, 0xA5]).counters.framesRead ≠
      2 ^ (reader [0x00, 0x0D, 0, 0, 0, 0, 0, 0, 0x42, 0xA5, 0xA5, 0xA5, 0xA5]).cw - 1 := by decide

/-- The smallest payload that does not round-trip. -/
theorem witness_OversizePayloadIsNotReturned :
    (ported { State.reset.ops with pPresent := true, p := List.replicate 65524 0x07 }).fault = false ∧
    (ported { State.reset.ops with pPresent := true, p := List.replicate 65524 0x07 }).ops.pPresent =
      true ∧
    65524 ≤
      (ported { State.reset.ops with pPresent := true, p := List.replicate 65524 0x07 }).ops.p.length ∧
    ∀ out, (reader out).fault = false ∧ (reader out).source = ⟨out, 0, []⟩ :=
  ⟨rfl, rfl, Nat.le_of_eq List.length_replicate.symm, fun _ => ⟨rfl, rfl⟩⟩

/-- A read that waits at the header read, and one that waits at the payload read. -/
theorem witness_StalledReadWaits :
    (∃ w tr, exec .read (reader frame3 [.full, .full, .stall]) = .next w ∧
      (reader frame3 [.full, .full, .stall]).fault = false ∧ w.transfer = some tr) ∧
    (reader frame3 [.stall]).fault = false ∧ (reader frame3 [.stall]).source.answers = .stall :: [] :=
  ⟨⟨_, _, rfl, by decide, rfl⟩, by decide, by decide⟩

theorem witness_AnsweredReadResumes :
    ∃ w, exec (readCommand (some 0x0B)) (reader frame3 [.full, .full, .full, .stall]) = .next w ∧
      (reader frame3 [.full, .full, .full, .stall]).fault = false ∧ w.transfer ≠ none :=
  ⟨_, rfl, by decide, by decide⟩

/-- Register numbers 5 and 7, the ends of the reserved range. -/
theorem witness_CntrdReadsRegister :
    State.reset.fault = false ∧ 5 ≤ (5 : BitVec 3).toNat ∧ 5 ≤ (7 : BitVec 3).toNat := by decide

/-- A faulted block, and register numbers at the ends of the two ranges. -/
theorem witness_CntrdWorksAfterFault :
    (faulted 9).fault = true ∧ (0 : BitVec 3).toNat ≤ 3 ∧ (3 : BitVec 3).toNat ≤ 3 ∧
    5 ≤ (5 : BitVec 3).toNat ∧ 5 ≤ (7 : BitVec 3).toNat := by decide

theorem witness_CommandAfterFaultIsUndefined :
    (faulted 9).fault = true ∧ ∀ idx, Instr.read ≠ .cntrd idx := by decide

/-- A step that takes a fault, a step of a faulted block, and a step with no fault before or after. -/
theorem witness_FaultRecordIsSticky :
    (∃ t, step (issuing 0x0000) = .next t ∧ (issuing 0x0000).fault = false ∧ t.fault = true) ∧
    (∃ t, step (faulted 9) = .next t ∧ (faulted 9).fault = true) ∧
    (∃ t, step (issuing 0x0009) = .next t ∧ (issuing 0x0009).fault = false ∧ t.fault = false) :=
  ⟨⟨_, rfl, by decide, rfl⟩, ⟨_, rfl, rfl⟩, ⟨_, rfl, by decide, by decide⟩⟩

theorem witness_CountersOnlyGoUp :
    ∃ t, step (issuing 0x0009) = .next t ∧ t.fault = false ∧
      t.counters.framesDropped = (issuing 0x0009).counters.framesDropped + 1 :=
  ⟨_, rfl, by decide, by decide⟩

theorem witness_OtherCommandsLeaveReader :
    ∃ t, exec .hdrenc State.reset = .next t ∧ State.reset.fault = false ∧ t.fault = false ∧
      Instr.hdrenc ≠ .read ∧ (∀ cat, Instr.hdrenc ≠ .readc cat) ∧ Instr.hdrenc ≠ .encode ∧
      Instr.hdrenc ≠ .plen :=
  ⟨_, rfl, by decide, by decide, by decide, by decide, by decide, by decide⟩

theorem witness_EncoderHalfIgnoresReaderHalf :
    Instr.encode ∈ [Instr.hdrenc, .ftrgen, .encode] ∧ State.reset.fault = false ∧
    (reader frame3).fault = false ∧ (reader frame3).ops = State.reset.ops := by decide

theorem witness_ReadObservesNoStaleScratch :
    (reader frame3).fault = false ∧ (reader frame3).scratch ≠ ⟨hdr3, ⟨1, 2, 3, 4⟩, hdr3, ⟨1, 2, 3, 4⟩⟩ :=
  by decide

/-- Two runs of one read from different counters. -/
theorem witness_CountersDecideNothing :
    ∃ t t', exec (readCommand none) (reader frame3) = .next t ∧
      exec (readCommand none) { reader frame3 with counters := ⟨7, 5, 2, 3⟩ } = .next t' ∧
      (reader frame3).fault = false ∧ t.fault = false ∧ t'.fault = false :=
  ⟨_, _, rfl, rfl, by decide, by decide, by decide⟩

theorem witness_StepKeepsInvariant : waitingBlock.Inv ∧ ∃ t, step waitingBlock = .next t := by
  refine ⟨⟨?_, ?_, ?_, ?_, ?_, ?_⟩, _, rfl⟩
  · unfold Counters.Fits; decide
  · unfold Source.InRange; decide
  · unfold State.FaultRecordOk; decide
  · unfold State.DropsCovered; decide
  · intro t ht
    cases ht
    exact ⟨rfl, rfl, by unfold Phase.Fits; decide⟩
  · intro r hr
    cases hr

/-- A step from drops that add up, at a state other than reset. -/
theorem witness_StepKeepsDropSum :
    ({ issuing 0x0009 with counters := ⟨1, 3, 2, 1⟩ } : State).DropsAddUp ∧
    ∃ t, step { issuing 0x0009 with counters := ⟨1, 3, 2, 1⟩ } = .next t :=
  ⟨by unfold State.DropsAddUp; decide, _, rfl⟩

theorem witness_DroppedFrameLosesBoundary :
    ∃ t, (reader oversize).fault = false ∧ (reader oversize).PlainSource ∧
      (reader oversize).upcoming = hdr20.toList ++ List.replicate 11 0x01 ∧
      8 + (List.replicate 11 (0x01 : Byte)).length < hdr20.b0.toNat * 256 + hdr20.b1.toNat ∧
      exec (readCommand none) (reader oversize) = .next t ∧ t.fault = false :=
  ⟨_, by decide, reader_plain _, by decide, by decide, rfl, by decide⟩

end Sys2Proof.Tests
end

section
/-! Command equations with `FAULT` = 0: the next state of each command but `READ` and `READC`, through the
updates of Laws/State (40_encoder_units.md, 41_reader_units.md, 42_frame_operations.md R90,
43_counter_access.md R100). For `READ` and `READC` that equation is `exec_readCommand`. -/

namespace Sys2Proof.Machine

variable {s t : State}

theorem exec_hdrenc (h : s.fault = false) :
    exec .hdrenc s = .next (s.respondSome (.header (encodeHeader s.ops.n s.ops.t))) :=
  congrArg _ (unlessFaulted_of_clear h _)

theorem exec_ftrgen (h : s.fault = false) :
    exec .ftrgen s = .next (s.respondSome (.footer generateFooter)) :=
  congrArg _ (unlessFaulted_of_clear h _)

theorem exec_hdrdec (h : s.fault = false) :
    exec .hdrdec s = .next (s.respondSome (.fields (headerLength s.ops.h) (headerTime s.ops.h))) :=
  congrArg _ (unlessFaulted_of_clear h _)

theorem exec_szchk (h : s.fault = false) :
    exec .szchk s = .next (s.respondSome (.sizeOk (sizeFits s.ops.flen s.ops.avail))) :=
  congrArg _ (unlessFaulted_of_clear h _)

theorem exec_plen (h : s.fault = false) : exec .plen s = .next (respondLength s) :=
  congrArg _ (unlessFaulted_of_clear h _)

theorem exec_ftrchk (h : s.fault = false) :
    exec .ftrchk s = .next (s.respondSome (.footerValid (footerMatches s.ops.f))) :=
  congrArg _ (unlessFaulted_of_clear h _)

theorem exec_catchk (h : s.fault = false) :
    exec .catchk s = .next (s.respondSome (.categoryMatch (categoryEq s.ops.p0 s.ops.cat))) :=
  congrArg _ (unlessFaulted_of_clear h _)

theorem exec_encode (h : s.fault = false) : exec .encode s = .next (encodeFrame s) :=
  congrArg _ (unlessFaulted_of_clear h _)

/-- `PLEN` answers from the state as it is, or below the overhead draws a free value. -/
theorem respondLength_cases (s : State) :
    (∃ plen, payloadLength s.ops.flen = some plen ∧
      respondLength s = s.respondSome (.length (lengthUnder s.ops.flen) plen)) ∨
    (payloadLength s.ops.flen = none ∧ respondLength s = s.nextTick.respondSome
      (.length (lengthUnder s.ops.flen) (Config.freePlen s.tick s.ops.flen))) := by
  unfold respondLength
  cases payloadLength s.ops.flen with
  | some plen => exact .inl ⟨plen, rfl, rfl⟩
  | none => exact .inr ⟨rfl, rfl⟩

theorem encodeFrame_of_empty (h : s.ops.pPresent = false ∨ s.ops.p = []) :
    encodeFrame s = s.respondNone .emptyInput :=
  if_pos h

theorem encodeFrame_of_payload (h : ¬(s.ops.pPresent = false ∨ s.ops.p = [])) :
    encodeFrame s =
      ((s.setEhdr (encodeHeader s.ops.p.length s.ops.now)).setEftr generateFooter).respondSome
        (.frame (buildFrame (encodeHeader s.ops.p.length s.ops.now) s.ops.p generateFooter)) :=
  if_neg h

theorem exec_cntrd_of_counter {idx : BitVec 3} {x : CounterName} (h : s.fault = false)
    (hx : counterOf? idx = some x) :
    exec (.cntrd idx) s = .next (s.respondSome (.value (s.counters.get x))) := by
  simp [exec, execCntrd, hx, readCounter, h]

/-- Register 4 is the status word, whatever `FAULT` is. -/
theorem exec_cntrd_four (s : State) :
    exec (.cntrd 4) s = .next (s.respondSome (.value (statusWord s.fault s.fcause).toNat)) := rfl

/-- The other numbers without a counter take `ILLEGAL_CMD`, whatever `FAULT` is. -/
theorem exec_cntrd_of_reserved {idx : BitVec 3} (s : State) (hx : counterOf? idx = none) (h4 : idx ≠ 4) :
    exec (.cntrd idx) s = .next (takeFault .illegalCmd s) := by
  simp only [exec, execCntrd, hx, if_neg h4]

/-- Everything a command other than `READ` and `READC` can do with `FAULT` = 0: it responds from the state
as it is, `PLEN` perhaps after drawing a free value, `ENCODE` perhaps after writing its own two scratch
registers; or, `CNTRD` alone, it takes `ILLEGAL_CMD`. -/
theorem exec_cases_of_not_read {i : Instr} (h : exec i s = .next t) (hs : s.fault = false)
    (hr : i ≠ .read) (hc : ∀ cat, i ≠ .readc cat) :
    (∃ r, t = s.respond r) ∨ (i = .plen ∧ ∃ r, t = s.nextTick.respond r) ∨
    (i = .encode ∧ ∃ hdr ftr r, t = ((s.setEhdr hdr).setEftr ftr).respond r) ∨
    (∃ idx, i = .cntrd idx ∧ t = takeFault .illegalCmd s) := by
  have answers {t' : State} (e : exec i s = .next t') : t = t' := by rw [h] at e; cases e; rfl
  cases i with
  | hdrenc => exact .inl ⟨_, answers (exec_hdrenc hs)⟩
  | ftrgen => exact .inl ⟨_, answers (exec_ftrgen hs)⟩
  | hdrdec => exact .inl ⟨_, answers (exec_hdrdec hs)⟩
  | szchk => exact .inl ⟨_, answers (exec_szchk hs)⟩
  | plen =>
    rcases respondLength_cases s with ⟨_, -, e⟩ | ⟨-, e⟩
    · exact .inl ⟨_, (answers (exec_plen hs)).trans e⟩
    · exact .inr (.inl ⟨rfl, _, (answers (exec_plen hs)).trans e⟩)
  | ftrchk => exact .inl ⟨_, answers (exec_ftrchk hs)⟩
  | catchk => exact .inl ⟨_, answers (exec_catchk hs)⟩
  | encode =>
    by_cases hp : s.ops.pPresent = false ∨ s.ops.p = []
    · exact .inl ⟨_, (answers (exec_encode hs)).trans (encodeFrame_of_empty hp)⟩
    · exact .inr (.inr (.inl
        ⟨rfl, _, _, _, (answers (exec_encode hs)).trans (encodeFrame_of_payload hp)⟩))
  | read => exact absurd rfl hr
  | readc cat => exact absurd rfl (hc cat)
  | cntrd idx =>
    cases hx : counterOf? idx with
    | some x => exact .inl ⟨_, answers (exec_cntrd_of_counter hs hx)⟩
    | none =>
      by_cases h4 : idx = 4
      · subst h4
        exact .inl ⟨_, answers (exec_cntrd_four s)⟩
      · exact .inr (.inr (.inr ⟨idx, rfl, answers (exec_cntrd_of_reserved s hx h4)⟩))

/-- The encoder commands answer a response that their operands decide, and no fault. -/
theorem exec_encoder_response {i : Instr} {s' : State} (hi : i ∈ [Instr.hdrenc, .ftrgen, .encode])
    (hs : s.fault = false) (hs' : s'.fault = false) (ho : s'.ops = s.ops) :
    ∃ t t', exec i s = .next t ∧ exec i s' = .next t' ∧ t'.response = t.response ∧ t.fault = false := by
  simp only [List.mem_cons, List.not_mem_nil, or_false] at hi
  rcases hi with rfl | rfl | rfl
  · exact ⟨_, _, exec_hdrenc hs, exec_hdrenc hs', by simp [ho], by simp [hs]⟩
  · exact ⟨_, _, exec_ftrgen hs, exec_ftrgen hs', by simp, by simp [hs]⟩
  · refine ⟨_, _, exec_encode hs, exec_encode hs', ?_⟩
    by_cases hp : s.ops.pPresent = false ∨ s.ops.p = []
    · rw [encodeFrame_of_empty hp, encodeFrame_of_empty (ho ▸ hp)]
      simp [hs]
    · rw [encodeFrame_of_payload hp, encodeFrame_of_payload (ho ▸ hp)]
      simp [ho, hs]

end Sys2Proof.Machine
end

section
/-! The frame of `READ` and `READC`: what no access of a read and no ending without a fault changes. -/

namespace Sys2Proof.Machine

/-- The part of the state no fault-free `READ` or `READC` writes (00_scope.md R2, 10_state.md R18): the fault
cause, the ports and the environment but for the cursor and the answers, the counter width, and the encoder
half's scratch. -/
def State.outsideRead (s : State) :
    BitVec 4 × Operands × List Request × Nat × Bytes8 × Bytes4 × List Byte :=
  (s.fcause, s.ops, s.pending, s.cw, s.scratch.ehdr, s.scratch.eftr, s.source.bytes)

section
variable (u : State)

@[simp] theorem State.setCounters_outsideRead (c : Counters) :
    (u.setCounters c).outsideRead = u.outsideRead := by rfl
@[simp] theorem State.setSource_consume_outsideRead (k : Nat) :
    (u.setSource (u.source.consume k)).outsideRead = u.outsideRead := by rfl
@[simp] theorem State.setSource_answers_outsideRead (later : List Answer) :
    (u.setSource { u.source with answers := later }).outsideRead = u.outsideRead := by rfl
@[simp] theorem State.streamError_outsideRead : u.streamError.outsideRead = u.outsideRead := by rfl
@[simp] theorem State.setRhdr_outsideRead (h : Bytes8) :
    (u.setRhdr h).outsideRead = u.outsideRead := by rfl
@[simp] theorem State.setRftr_outsideRead (f : Bytes4) :
    (u.setRftr f).outsideRead = u.outsideRead := by rfl
@[simp] theorem State.respondSome_outsideRead (d : Data) :
    (u.respondSome d).outsideRead = u.outsideRead := by rfl
@[simp] theorem State.respondNone_outsideRead (c : Cause) :
    (u.respondNone c).outsideRead = u.outsideRead := by rfl
@[simp] theorem State.await_outsideRead (t : Transfer) :
    (u.await t).outsideRead = u.outsideRead := by rfl

end

/-- A counting operation that takes no fault is what follows it, on moved counters. -/
theorem count_of_clear {xs : List CounterName} {u : State} {k : State → State}
    (h : (count xs u k).fault = false) : ∃ c, count xs u k = k (u.setCounters c) := by
  rcases count_cases xs u k with ⟨-, e⟩ | ⟨c, -, e⟩
  · rw [e, takeFault_fault] at h
    cases h
  · exact ⟨c, e⟩

theorem count_outsideRead {xs : List CounterName} {u : State} {k : State → State}
    (hk : ∀ v, (k v).outsideRead = v.outsideRead) (h : (count xs u k).fault = false) :
    (count xs u k).outsideRead = u.outsideRead := by
  obtain ⟨c, e⟩ := count_of_clear h
  rw [e, hk, State.setCounters_outsideRead]

/-- Every way a read can end, a fault apart, keeps what is outside the read; nothing need be known of the
access it waits at. -/
theorem readClosed_outsideRead (s : State) (f : Option Byte) :
    ReadClosed f (fun _ _ => True) (fun u => u.outsideRead = s.outsideRead)
      (fun t => t.fault = false → t.outsideRead = s.outsideRead) where
  fits _ _ _ := trivial
  consume u k hu := (u.setSource_consume_outsideRead k).trans hu
  asked u hu := (u.setSource_answers_outsideRead _).trans hu
  rhdr u h hu := (u.setRhdr_outsideRead h).trans hu
  rftr u h hu := (u.setRftr_outsideRead h).trans hu
  dropSize u hu ht := (count_outsideRead (fun v => v.respondNone_outsideRead _) ht).trans hu
  dropFooter u hu ht := (count_outsideRead (fun v => v.respondNone_outsideRead _) ht).trans hu
  ioError u hu ht :=
    (count_outsideRead (fun v => v.respondNone_outsideRead _) ht).trans
      (u.streamError_outsideRead.trans hu)
  takeFault c u _ _ ht := by simp at ht
  await u p hu _ _ _ := (u.await_outsideRead ⟨f, p⟩).trans hu
  finish u body hu _ ht := by
    refine (count_outsideRead (fun v => ?_) ht).trans hu
    split
    · exact v.respondSome_outsideRead _
    · exact v.respondNone_outsideRead _

end Sys2Proof.Machine
end

section
/-! The statements of 00_scope.md: the two halves of the block and their frames (R2). -/

namespace Sys2Proof.Machine

/-- Settles O38: what is outside a read is carried through its accesses by `ReadClosed`. -/
theorem readLeavesTheRest : Obligations.ReadLeavesTheRest := by
  intro s t filter h hs ht
  rw [exec_readCommand filter hs] at h
  cases h
  have hframe : (readHeader filter s).outsideRead = s.outsideRead :=
    (readClosed_outsideRead s filter).readHeader rfl ht
  simpa only [State.outsideRead, Prod.mk.injEq] using hframe

/-- Settles O49, from the four things a command other than a read can do. -/
theorem otherCommandsLeaveReader : Obligations.OtherCommandsLeaveReader := by
  intro i s t h hs ht hr hc
  rcases exec_cases_of_not_read h hs hr hc with
    ⟨r, rfl⟩ | ⟨hi, r, rfl⟩ | ⟨hi, hdr, ftr, r, rfl⟩ | ⟨idx, -, rfl⟩
  · simp
  · simp [hi]
  · simp [hi]
  · simp at ht

/-- Settles O50: the response by `exec_encoder_response`, the reader half's state by O49. -/
theorem encoderHalfIgnoresReaderHalf : Obligations.EncoderHalfIgnoresReaderHalf := by
  intro i s s' hi hs hs' ho
  obtain ⟨t, t', e, e', hresp, ht⟩ := exec_encoder_response hi hs hs' ho
  have hr : i ≠ .read := by rintro rfl; simp at hi
  have hc : ∀ cat, i ≠ .readc cat := by rintro cat rfl; simp at hi
  obtain ⟨hcnt, hsrc, hrhdr, hrftr, -⟩ := otherCommandsLeaveReader i s t e hs ht hr hc
  exact ⟨t, t', e, e', hresp, hcnt, hsrc, hrhdr, hrftr⟩

end Sys2Proof.Machine
end

section
/-! Counter operations as numbers: what a sequence of `inc`s adds to each counter, and when it overflows
(10_state.md R15, R16). -/

namespace Sys2Proof.Machine

theorem Counters.get_set (c : Counters) (v : Nat) (x y : CounterName) :
    (c.set v x).get y = if y = x then v else c.get y := by
  cases x <;> cases y <;> rfl

theorem Counters.ext_get {c c' : Counters} (h : ∀ y, c'.get y = c.get y) : c' = c := by
  obtain ⟨r, d, z, f⟩ := c
  obtain ⟨r', d', z', f'⟩ := c'
  cases h .framesRead
  cases h .framesDropped
  cases h .droppedForInvalidSize
  cases h .droppedForInvalidFooter
  rfl

/-- `inc`s that meet no full counter add to each counter how often it is named. -/
theorem Counters.incAll_get {cw : Nat} {xs : List CounterName} :
    ∀ {c c' : Counters}, c.incAll cw xs = some c' → ∀ y, c'.get y = c.get y + xs.count y := by
  induction xs with
  | nil => intro c c' h y; cases h; rfl
  | cons x xs ih =>
    intro c c' h y
    unfold Counters.incAll at h
    split at h
    · cases h
    · rename_i c1 h1
      obtain ⟨-, rfl⟩ := Counters.inc_some h1
      rw [ih h y, Counters.get_set, List.count_cons]
      by_cases hyx : y = x
      · subst hyx
        simp only [if_true, beq_self_eq_true]
        omega
      · simp [hyx, Ne.symm hyx]

/-- A full counter among the named ones stops the `inc`s, wherever it stands in their order. -/
theorem Counters.incAll_none_of_full {cw : Nat} {x : CounterName} {xs : List CounterName} :
    ∀ {c : Counters}, xs.Nodup → x ∈ xs → c.get x = 2 ^ cw - 1 → c.incAll cw xs = none := by
  induction xs with
  | nil => intro c _ hx _; cases hx
  | cons y ys ih =>
    intro c hnd hx hfull
    obtain ⟨hy, hnd⟩ := List.nodup_cons.1 hnd
    unfold Counters.incAll
    cases h1 : c.inc cw y with
    | none => rfl
    | some c1 =>
      obtain ⟨hne, rfl⟩ := Counters.inc_some h1
      rcases List.mem_cons.1 hx with rfl | hx
      · exact absurd hfull hne
      · have hxy : x ≠ y := fun e => hy (e ▸ hx)
        exact ih hnd hx (by rw [Counters.get_set, if_neg hxy, hfull])

/-- Counting in a full counter is the fault `CNT_OVERFLOW`. -/
theorem count_of_full {xs : List CounterName} {x : CounterName} {s : State} (k : State → State)
    (hnd : xs.Nodup) (hx : x ∈ xs) (hfull : s.counters.get x = 2 ^ s.cw - 1) :
    count xs s k = takeFault .cntOverflow s := by
  simp only [count, Counters.incAll_none_of_full hnd hx hfull]

end Sys2Proof.Machine
end

section
/-! Commands after a fault (10_state.md R18, 43_counter_access.md R100): every command but `CNTRD` is
undefined, and a counter read gives a free value. -/

namespace Sys2Proof.Machine

variable {s t : State}

theorem exec_of_fault {i : Instr} (h : s.fault = true) (hi : ∀ idx, i ≠ .cntrd idx) :
    exec i s = .next (undefinedCommand s) := by
  cases i with
  | cntrd idx => exact absurd rfl (hi idx)
  | _ => exact congrArg _ (unlessFaulted_of_fault h _)

theorem exec_cntrd_of_counter_after_fault {idx : BitVec 3} {x : CounterName} (h : s.fault = true)
    (hx : counterOf? idx = some x) :
    exec (.cntrd idx) s =
      .next (s.nextTick.respondSome (.value (Config.freeCounter s.tick idx % 2 ^ s.cw))) := by
  simp [exec, execCntrd, hx, readCounter, h]

/-- Register numbers 0 to 3 are the counters (10_state.md R17). -/
theorem counterOf?_isSome :
    ∀ idx : BitVec 3, idx.toNat ≤ 3 → (counterOf? idx).isSome = true := by decide

/-- Register numbers 5 to 7 are reserved (10_state.md R17). -/
theorem counterOf?_reserved : ∀ idx : BitVec 3, 5 ≤ idx.toNat → counterOf? idx = none ∧ idx ≠ 4 := by
  decide

theorem FaultCause.code_cases (c : FaultCause) :
    c.code = 8 ∨ c.code = 9 ∨ c.code = 10 ∨ c.code = 11 ∨ c.code = 12 := by
  cases c <;> decide

theorem FaultCause.code_range (c : FaultCause) : 8 ≤ c.code.toNat ∧ c.code.toNat ≤ 12 := by
  cases c <;> decide

end Sys2Proof.Machine
end

section
/-! What a step can do, said once: the principle by which a property of the state a step starts in is carried
to a property of the state it answers, whichever command runs or goes on. It extends `ReadClosed` from the
reads to every step. -/

namespace Sys2Proof.Machine

/-- `P` is kept by accepting a command and by what the commands other than the reads write, and every way a
command can end from a state with `P` has `Q`. -/
structure StepClosed (W : Phase → Bytes8 → Prop) (P Q : State → Prop) : Prop where
  accept : ∀ u r rest, u.pending = r :: rest → P u → P (u.accept r rest)
  nextTick : ∀ u, P u → P u.nextTick
  encoderScratch : ∀ u h f, P u → P ((u.setEhdr h).setEftr f)
  respond : ∀ u r, P u → Q (u.respond r)
  illegal : ∀ u, P u → Q (takeFault .illegalCmd u)
  afterFault : ∀ u, u.fault = true → P u → Q (undefinedCommand u)
  reads : ∀ f, ReadClosed f W (fun u => u.fault = false ∧ P u) Q

variable {W : Phase → Bytes8 → Prop} {P Q : State → Prop} {s t : State}

theorem StepClosed.execCntrd (hc : StepClosed W P Q) (hs : P s) {idx : BitVec 3}
    (h : exec (.cntrd idx) s = .next t) : Q t := by
  cases hx : counterOf? idx with
  | none =>
    by_cases h4 : idx = 4
    · subst h4
      rw [exec_cntrd_four] at h
      cases h
      exact hc.respond _ _ hs
    · rw [exec_cntrd_of_reserved s hx h4] at h
      cases h
      exact hc.illegal _ hs
  | some x =>
    cases hf : s.fault with
    | true =>
      rw [exec_cntrd_of_counter_after_fault hf hx] at h
      cases h
      exact hc.respond _ _ (hc.nextTick _ hs)
    | false =>
      rw [exec_cntrd_of_counter hf hx] at h
      cases h
      exact hc.respond _ _ hs

theorem StepClosed.execRead (hc : StepClosed W P Q) (hs : P s) (f : Option Byte)
    (hf : s.fault = false) (h : exec (readCommand f) s = .next t) : Q t := by
  rw [exec_readCommand f hf] at h
  cases h
  exact (hc.reads f).readHeader ⟨hf, hs⟩

theorem StepClosed.exec (hc : StepClosed W P Q) (hs : P s) {i : Instr}
    (h : exec i s = .next t) : Q t := by
  by_cases hi : ∃ idx, i = .cntrd idx
  · obtain ⟨idx, rfl⟩ := hi
    exact hc.execCntrd hs h
  rw [not_exists] at hi
  cases hf : s.fault with
  | true =>
    rw [exec_of_fault hf hi] at h
    cases h
    exact hc.afterFault _ hf hs
  | false =>
    by_cases hr : ∃ f, i = readCommand f
    · obtain ⟨f, rfl⟩ := hr
      exact hc.execRead hs f hf h
    rw [not_exists] at hr
    rcases exec_cases_of_not_read h hf (hr none) (fun cat => hr (some cat)) with
      ⟨r, rfl⟩ | ⟨-, r, rfl⟩ | ⟨-, hdr, ftr, r, rfl⟩ | ⟨idx, rfl, -⟩
    · exact hc.respond _ _ hs
    · exact hc.respond _ _ (hc.nextTick _ hs)
    · exact hc.respond _ _ (hc.encoderScratch _ _ _ hs)
    · exact absurd rfl (hi idx)

theorem StepClosed.runWord (hc : StepClosed W P Q) (hs : P s) {w : CmdWord}
    (h : runWord w s = .next t) : Q t := by
  unfold Sys2Proof.Machine.runWord at h
  split at h
  · exact hc.exec hs h
  · cases h
    exact hc.illegal _ hs

theorem StepClosed.resumeRead (hc : StepClosed W P Q) (hs : P s) {tr : Transfer}
    (hw : s.fault = false → W tr.phase s.scratch.rhdr) (h : resumeRead tr s = .next t) : Q t := by
  cases h
  cases hf : s.fault with
  | true =>
    rw [unlessFaulted_of_fault hf]
    exact hc.afterFault _ hf hs
  | false =>
    rw [unlessFaulted_of_clear hf]
    exact (hc.reads tr.filter).resumeAt ⟨hf, hs⟩ (hw hf)

/-- A step resumes the waiting read, changes nothing, or accepts the host's next command and runs it. -/
theorem StepClosed.step (hc : StepClosed W P Q) (hs : P s) (hidle : Q s)
    (hw : ∀ tr, s.transfer = some tr → s.fault = false → W tr.phase s.scratch.rhdr)
    (h : step s = .next t) : Q t := by
  unfold Sys2Proof.Machine.step fetch at h
  cases htr : s.transfer with
  | some tr =>
    rw [htr] at h
    exact hc.resumeRead hs (hw tr htr) h
  | none =>
    cases hp : s.pending with
    | nil =>
      rw [htr, hp] at h
      cases h
      exact hidle
    | cons r rest =>
      rw [htr, hp] at h
      exact hc.runWord (hc.accept _ _ _ hp hs) h

end Sys2Proof.Machine
end

section
/-! What a step does to the fault record and the counters (10_state.md R15, R16, R18). -/

namespace Sys2Proof.Machine

/-- The fault record and the counters. -/
def State.record (s : State) : Bool × BitVec 4 × Counters := (s.fault, s.fcause, s.counters)

/-- Which counters a command that takes no fault moves, by its response (42_frame_operations.md R94). -/
inductive CountsFor (response : Option Response) : List CounterName → Prop
  | nothing : CountsFor response []
  | frame : CountsFor response [.framesRead]
  | sizeDrop : CountsFor response [.framesDropped, .droppedForInvalidSize]
  | footerDrop : CountsFor response [.framesDropped, .droppedForInvalidFooter]
  | streamError (hcfg : Config.ioErrIncDropped = true)
      (hresp : response = some ⟨false, Cause.ioError.code, .absent⟩) : CountsFor response [.framesDropped]

/-- All a step from `s` to `t` can do to the fault record and the counters. -/
inductive RecordEffect (s t : State) : Prop
  /-- The record was written before, and stays. -/
  | kept (hs : s.fault = true) (ht : t.fault = true) (hcause : t.fcause = s.fcause)
  /-- The step takes the first fault. -/
  | taken (c : FaultCause) (a : Response) (hs : s.fault = false) (ht : t.fault = true)
      (hresp : t.response = some a) (ha : a.cause = c.code) (hcause : t.fcause = c.code)
  /-- No fault, before or after. -/
  | clear (xs : List CounterName) (hs : s.fault = false) (ht : t.fault = false)
      (hcause : t.fcause = s.fcause) (hcounts : CountsFor t.response xs)
      (hget : ∀ x, t.counters.get x = s.counters.get x + xs.count x)

variable {s t u : State}

theorem RecordEffect.of_record (h : t.record = s.record) : RecordEffect s t := by
  simp only [State.record, Prod.mk.injEq] at h
  obtain ⟨hf, hcause, hcnt⟩ := h
  cases hs : s.fault with
  | true => exact .kept hs (hf.trans hs) hcause
  | false => exact .clear [] hs (hf.trans hs) hcause .nothing (by simp [hcnt])

theorem RecordEffect.of_takeFault (c : FaultCause) (h : u.record = s.record) :
    RecordEffect s (takeFault c u) := by
  simp only [State.record, Prod.mk.injEq] at h
  obtain ⟨hf, hcause, -⟩ := h
  cases hs : s.fault with
  | true => exact .kept hs rfl (by simp [hf, hs, hcause])
  | false => exact .taken c _ hs rfl rfl rfl (by simp [hf, hs])

/-- Counting and then responding; `hk` is what the response must be for these counters to move. -/
theorem RecordEffect.of_count {xs : List CounterName} {k : State → State} (hf : u.fault = false)
    (h : u.record = s.record) (hrec : ∀ v, (k v).record = v.record)
    (hk : ∀ v, CountsFor (k v).response xs) : RecordEffect s (count xs u k) := by
  rcases count_cases xs u k with ⟨-, e⟩ | ⟨c, hc, e⟩
  · rw [e]
    exact .of_takeFault _ h
  · rw [e]
    have hv := hrec (u.setCounters c)
    simp only [State.record, Prod.mk.injEq] at h hv
    obtain ⟨hfu, hcause, hcnt⟩ := h
    obtain ⟨hft, hcauset, hcntt⟩ := hv
    refine .clear xs (hfu.symm.trans hf) (hft.trans hf) (hcauset.trans hcause) (hk _) ?_
    rw [hcntt, ← hcnt]
    exact Counters.incAll_get hc

/-- The waits, the drops and the successes of a read, whatever the access it stands at. -/
theorem readClosed_recordEffect (s : State) (f : Option Byte) :
    ReadClosed f (fun _ _ => True) (fun u => u.fault = false ∧ u.record = s.record) (RecordEffect s) where
  fits _ _ _ := trivial
  consume _ _ hu := hu
  asked _ hu := hu
  rhdr _ _ hu := hu
  rftr _ _ hu := hu
  dropSize u hu := .of_count hu.1 hu.2 (fun _ => rfl) (fun _ => .sizeDrop)
  dropFooter u hu := .of_count hu.1 hu.2 (fun _ => rfl) (fun _ => .footerDrop)
  ioError u hu := by
    refine .of_count (u := u.streamError) hu.1 hu.2 (fun _ => rfl) (fun v => ?_)
    split
    · exact .streamError ‹_› rfl
    · exact .nothing
  takeFault c u _ hu := .of_takeFault c hu.2
  await u p hu _ _ := .of_record hu.2
  finish u body hu _ := by
    refine .of_count hu.1 hu.2 (fun v => ?_) (fun _ => .frame)
    split <;> rfl

theorem stepClosed_recordEffect (s : State) :
    StepClosed (fun _ _ => True) (fun u => u.record = s.record) (RecordEffect s) where
  accept _ _ _ _ hu := hu
  nextTick _ hu := hu
  encoderScratch _ _ _ hu := hu
  respond _ _ hu := .of_record hu
  illegal _ hu := .of_takeFault _ hu
  afterFault u hf hu := by
    simp only [State.record, Prod.mk.injEq] at hu
    exact .kept (hu.1.symm.trans hf) hf hu.2.1
  reads f := readClosed_recordEffect s f

/-- Every step, from every state. -/
theorem step_recordEffect (h : step s = .next t) : RecordEffect s t :=
  (stepClosed_recordEffect s).step rfl (.of_record rfl) (fun _ _ _ => trivial) h

/-- No counter is named twice. -/
theorem CountsFor.count_le_one {r : Option Response} {xs : List CounterName} (h : CountsFor r xs)
    (x : CounterName) : xs.count x ≤ 1 := by
  cases h <;> cases x <;> decide

/-- The drops grow by at least their two reasons. -/
theorem CountsFor.reasons_le_drops {r : Option Response} {xs : List CounterName} (h : CountsFor r xs) :
    xs.count .droppedForInvalidSize + xs.count .droppedForInvalidFooter ≤ xs.count .framesDropped := by
  cases h <;> decide

/-- The drops grow by exactly their two reasons, but for a counted stream error. -/
theorem CountsFor.streamError_or_drops_eq {r : Option Response} {xs : List CounterName}
    (h : CountsFor r xs) :
    (Config.ioErrIncDropped = true ∧ r = some ⟨false, Cause.ioError.code, .absent⟩ ∧
      xs = [.framesDropped]) ∨
    xs.count .framesDropped = xs.count .droppedForInvalidSize + xs.count .droppedForInvalidFooter := by
  cases h with
  | streamError hcfg hresp => exact .inl ⟨hcfg, hresp, rfl⟩
  | nothing => exact .inr (by decide)
  | frame => exact .inr (by decide)
  | sizeDrop => exact .inr (by decide)
  | footerDrop => exact .inr (by decide)

end Sys2Proof.Machine
end

section
/-! What the invariant says beside the fault record and the drops: the bounds of counters and cursors, and
the coherence of a waiting command. -/

namespace Sys2Proof.Machine

/-- The counters fit, and every cursor, now and to come, is within its stream. -/
def State.Bounded (s : State) : Prop :=
  s.counters.Fits s.cw ∧ s.source.InRange ∧ s.PendingOk

variable {s u : State}

theorem State.Inv.bounded (h : s.Inv) : s.Bounded :=
  ⟨h.countersFit, h.sourceInRange, h.pendingOk⟩

theorem State.Bounded.accept {r : Request} {rest : List Request} (h : u.Bounded)
    (hp : u.pending = r :: rest) : (u.accept r rest).Bounded := by
  obtain ⟨hcnt, hsrc, hpend⟩ := h
  refine ⟨hcnt, ?_, fun q hq => hpend q (hp ▸ List.mem_cons_of_mem _ hq)⟩
  rw [State.accept_source]
  cases ha : r.attach with
  | none => exact hsrc
  | some src => exact hpend r (hp ▸ List.mem_cons_self) src ha

theorem State.Bounded.undefine (h : u.Bounded) : u.undefine.Bounded := by
  obtain ⟨-, -, hpend⟩ := h
  exact ⟨Counters.within_fits _ _, Source.jump_inRange _ _, hpend⟩

theorem State.Bounded.streamError (h : u.Bounded) : u.streamError.Bounded := by
  obtain ⟨hcnt, -, hpend⟩ := h
  exact ⟨hcnt, Source.jump_inRange _ _, hpend⟩

theorem State.Bounded.consume (k : Nat) (h : u.Bounded) :
    (u.setSource (u.source.consume k)).Bounded := by
  obtain ⟨hcnt, hsrc, hpend⟩ := h
  exact ⟨hcnt, Source.consume_inRange hsrc k, hpend⟩

theorem State.transferOk_of_none (h : s.transfer = none) : s.TransferOk := by
  intro t ht
  rw [h] at ht
  cases ht

theorem State.Bounded.takeFault (c : FaultCause) (h : u.Bounded) :
    (takeFault c u).Bounded ∧ (takeFault c u).TransferOk :=
  ⟨h.undefine, State.transferOk_of_none rfl⟩

theorem State.Bounded.respond (r : Response) (h : u.Bounded) :
    (u.respond r).Bounded ∧ (u.respond r).TransferOk :=
  ⟨h, State.transferOk_of_none rfl⟩

theorem State.Bounded.count {xs : List CounterName} {k : State → State} (h : u.Bounded)
    (hk : ∀ v : State, v.Bounded → (k v).Bounded ∧ (k v).TransferOk) :
    (count xs u k).Bounded ∧ (count xs u k).TransferOk := by
  rcases count_cases xs u k with ⟨-, e⟩ | ⟨c, hc, e⟩
  · rw [e]
    exact h.takeFault _
  · rw [e]
    obtain ⟨hcnt, hrest⟩ := h
    exact hk _ ⟨Counters.incAll_fits hc hcnt, hrest⟩

theorem readClosed_bounded (f : Option Byte) :
    ReadClosed f Phase.Fits (fun u => u.fault = false ∧ u.Bounded)
      (fun t => t.Bounded ∧ t.TransferOk) where
  fits _ _ h := h
  consume _ k hu := ⟨hu.1, hu.2.consume k⟩
  asked _ hu := hu
  rhdr _ _ hu := hu
  rftr _ _ hu := hu
  dropSize _ hu := hu.2.count fun _ hv => hv.respond _
  dropFooter _ hu := hu.2.count fun _ hv => hv.respond _
  ioError _ hu := hu.2.streamError.count fun _ hv => hv.respond _
  takeFault c _ _ hu := hu.2.takeFault c
  await u p hu hp _ := ⟨hu.2, fun t ht => by cases ht; exact ⟨hu.1, rfl, hp⟩⟩
  finish _ _ hu _ := hu.2.count fun v hv => by
    split
    · exact hv.respond _
    · exact hv.respond _

theorem stepClosed_bounded :
    StepClosed Phase.Fits State.Bounded (fun t => t.Bounded ∧ t.TransferOk) where
  accept _ _ _ hp hu := hu.accept hp
  nextTick _ hu := hu
  encoderScratch _ _ _ hu := hu
  respond _ r hu := hu.respond r
  illegal _ hu := hu.takeFault _
  afterFault _ _ hu := ⟨hu.undefine, State.transferOk_of_none rfl⟩
  reads f := readClosed_bounded f

end Sys2Proof.Machine
end

section
/-! What a read decides, said for every value of the counters and the scratch at once: which ending it comes
to, and in which state, depends on neither (10_state.md R15, R19). -/

namespace Sys2Proof.Machine

/-- The state with other counters and other scratch. -/
def State.variant (s : State) (c : Counters) (x : Scratch) : State :=
  (s.setCounters c).setScratch x

/-- The ways a `READ` or `READC` can end (42_frame_operations.md R94, 60_exceptions.md R112, R121). -/
inductive Ending where
  | waits (p : Phase)
  | streamError
  | sizeDrop
  | footerDrop
  | faults (k : FaultCause)
  | success (payload : List Byte)

/-- The counters an ending moves (42_frame_operations.md R94). -/
def Ending.moves : Ending → List CounterName
  | .waits _ => []
  | .streamError => if Config.ioErrIncDropped then [.framesDropped] else []
  | .sizeDrop => [.framesDropped, .droppedForInvalidSize]
  | .footerDrop => [.framesDropped, .droppedForInvalidFooter]
  | .faults _ => []
  | .success _ => [.framesRead]

/-- What an ending does once it has counted. -/
def Ending.close (f : Option Byte) : Ending → State → State
  | .waits p, s => s.await ⟨f, p⟩
  | .streamError, s => s.respondNone .ioError
  | .sizeDrop, s => s.respondNone .dropSize
  | .footerDrop, s => s.respondNone .dropFooter
  | .faults k, s => takeFault k s
  | .success payload, s =>
    if passesFilter f payload then s.respondSome (.payload payload) else s.respondNone .filtered

/-- The state an ending comes to. -/
def Ending.run (f : Option Byte) (e : Ending) (s : State) : State := count e.moves s (e.close f)

/-- From `s`, whatever the counters and for all scratch with `ok`, `stage` comes to one ending in one state,
but for the counters it started with and some scratch that does not depend on them. -/
def Decides (f : Option Byte) (stage : State → State) (s : State) (ok : Scratch → Prop) : Prop :=
  ∃ (e : Ending) (v : State), ∀ x, ok x → ∃ x', ∀ c, stage (s.variant c x) = e.run f (v.variant c x')

variable {s v : State} {f : Option Byte}

@[simp] theorem State.variant_scratch (c : Counters) (x : Scratch) :
    (s.variant c x).scratch = x := by rfl
@[simp] theorem State.variant_counters (c : Counters) (x : Scratch) :
    (s.variant c x).counters = c := by rfl
@[simp] theorem State.variant_source (c : Counters) (x : Scratch) :
    (s.variant c x).source = s.source := by rfl
@[simp] theorem State.variant_cw (c : Counters) (x : Scratch) :
    (s.variant c x).cw = s.cw := by rfl

/-- The source answers a read alike whatever the counters and the scratch. -/
theorem srcRead_variant {k : Nat} {r : Reply (List Byte)} (h : srcRead k s = (r, v)) (c : Counters)
    (x : Scratch) : srcRead k (s.variant c x) = (r, v.variant c x) := by
  unfold srcRead at h ⊢
  rw [State.variant_source]
  by_cases hk : k = 0
  · rw [if_pos hk] at h ⊢
    cases h
    rfl
  · rw [if_neg hk] at h ⊢
    split at h <;> (cases h; rfl)

/-- The source answers the query alike whatever the counters and the scratch. -/
theorem srcAvail_variant {r : Reply Nat} (h : srcAvail s = (r, v)) (c : Counters) (x : Scratch) :
    srcAvail (s.variant c x) = (r, v.variant c x) := by
  unfold srcAvail at h ⊢
  rw [State.variant_source]
  split at h <;> (cases h; rfl)

section
variable {stage : State → State} {ok : Scratch → Prop}

/-- A stage that comes to an ending at once. -/
theorem Decides.of_ending (e : Ending)
    (h : ∀ c x, ok x → stage (s.variant c x) = e.run f (v.variant c x)) : Decides f stage s ok :=
  ⟨e, v, fun x hx => ⟨x, fun c => h c x hx⟩⟩

/-- A stage that goes on to a later one with scratch `g x`. -/
theorem Decides.of_stage {later : State → State} {ok' : Scratch → Prop} (g : Scratch → Scratch)
    (hl : Decides f later v ok') (hg : ∀ x, ok x → ok' (g x))
    (h : ∀ c x, ok x → stage (s.variant c x) = later (v.variant c (g x))) : Decides f stage s ok := by
  obtain ⟨e, w, hw⟩ := hl
  refine ⟨e, w, fun x hx => ?_⟩
  obtain ⟨x', hx'⟩ := hw (g x) (hg x hx)
  exact ⟨x', fun c => (h c x hx).trans (hx' c)⟩

end

theorem readFinish_decides (s : State) (f : Option Byte) (body : List Byte) (ftr : Bytes4) :
    Decides f (readFinish f body) s (fun x => x.rftr = ftr) := by
  by_cases hf : footerMatches ftr = false
  · exact .of_ending (v := s) .footerDrop fun c x hx => by
      simp only [readFinish, State.variant_scratch, hx, if_pos hf]; rfl
  · by_cases he : f.isSome = true ∧ body = []
    · exact .of_ending (v := s) (.faults .emptyCategory) fun c x hx => by
        simp only [readFinish, State.variant_scratch, hx, if_neg hf, if_pos he]; rfl
    · exact .of_ending (v := s) (.success body) fun c x hx => by
        simp only [readFinish, State.variant_scratch, hx, if_neg hf, if_neg he]; rfl

theorem readFooter_decides (s : State) (f : Option Byte) (body : List Byte) :
    Decides f (readFooter f body) s (fun _ => True) := by
  rcases hr : srcRead Config.footerLen s with ⟨r, v⟩
  have hv := srcRead_variant hr
  cases r with
  | noAnswer =>
    exact .of_ending (v := v) (.waits (.footer body)) fun c x _ => by simp only [readFooter, hv]; rfl
  | err => exact .of_ending (v := v) .streamError fun c x _ => by simp only [readFooter, hv]; rfl
  | answer b =>
    cases hb : Bytes4.ofList? b with
    | none =>
      exact .of_ending (v := v) (.faults .shortBody) fun c x _ => by
        simp only [readFooter, hv, hb]; rfl
    | some ftr =>
      exact (readFinish_decides v f body ftr).of_stage (fun x => { x with rftr := ftr })
        (fun _ _ => rfl) fun c x _ => by simp only [readFooter, hv, hb]; rfl

theorem readPayload_decides (s : State) (f : Option Byte) (hdr : Bytes8) :
    Decides f (readPayload f) s (fun x => x.rhdr = hdr) := by
  cases hp : payloadLength (headerLength hdr) with
  | none =>
    exact .of_ending (v := s) (.faults .lenUnderflow) fun c x hx => by
      simp only [readPayload, State.variant_scratch, hx, hp]; rfl
  | some plen =>
    rcases hr : srcRead plen.toNat s with ⟨r, v⟩
    have hv := srcRead_variant hr
    cases r with
    | noAnswer =>
      exact .of_ending (v := v) (.waits .payload) fun c x hx => by
        simp only [readPayload, State.variant_scratch, hx, hp, hv]; rfl
    | err =>
      exact .of_ending (v := v) .streamError fun c x hx => by
        simp only [readPayload, State.variant_scratch, hx, hp, hv]; rfl
    | answer b =>
      by_cases hb : b.length < plen.toNat
      · exact .of_ending (v := v) (.faults .shortBody) fun c x hx => by
          simp only [readPayload, State.variant_scratch, hx, hp, hv, if_pos hb]; rfl
      · exact (readFooter_decides v f b).of_stage id (fun _ _ => trivial) fun c x hx => by
          simp only [readPayload, State.variant_scratch, hx, hp, hv, if_neg hb, id]

theorem readSize_decides (s : State) (f : Option Byte) (hdr : Bytes8) :
    Decides f (readSize f) s (fun x => x.rhdr = hdr) := by
  rcases hr : srcAvail s with ⟨r, v⟩
  have hv := srcAvail_variant hr
  cases r with
  | noAnswer => exact .of_ending (v := v) (.waits .size) fun c x _ => by simp only [readSize, hv]; rfl
  | err => exact .of_ending (v := v) .streamError fun c x _ => by simp only [readSize, hv]; rfl
  | answer a =>
    by_cases hfit : sizeFits (headerLength hdr) (Config.headerLen + a) = true
    · exact (readPayload_decides v f hdr).of_stage id (fun _ hx => hx) fun c x hx => by
        simp only [readSize, hv, State.variant_scratch, hx, if_pos hfit, id]
    · exact .of_ending (v := v) .sizeDrop fun c x hx => by
        simp only [readSize, hv, State.variant_scratch, hx, if_neg hfit]; rfl

/-- What a whole read comes to depends on no scratch: `RHDR` and `RFTR` are written before they are
looked at. -/
theorem readHeader_decides (s : State) (f : Option Byte) :
    Decides f (readHeader f) s (fun _ => True) := by
  rcases hr : srcRead Config.headerLen s with ⟨r, v⟩
  have hv := srcRead_variant hr
  cases r with
  | noAnswer =>
    exact .of_ending (v := v) (.waits .header) fun c x _ => by simp only [readHeader, hv]; rfl
  | err => exact .of_ending (v := v) .streamError fun c x _ => by simp only [readHeader, hv]; rfl
  | answer b =>
    cases hb : Bytes8.ofList? b with
    | none => exact .of_ending (v := v) .sizeDrop fun c x _ => by simp only [readHeader, hv, hb]; rfl
    | some hdr =>
      exact (readSize_decides v f hdr).of_stage (fun x => { x with rhdr := hdr })
        (fun _ _ => rfl) fun c x _ => by simp only [readHeader, hv, hb]; rfl

/-- An ending overflows a counter, or moves its counters and closes, whichever scratch it meets. -/
theorem Ending.run_variant_cases (e : Ending) (f : Option Byte) (s : State) (c : Counters) :
    (c.incAll s.cw e.moves = none ∧ ∀ x, e.run f (s.variant c x) = takeFault .cntOverflow s) ∨
    (∃ c', c.incAll s.cw e.moves = some c' ∧
      ∀ x, e.run f (s.variant c x) = e.close f (s.variant c' x)) := by
  unfold Ending.run count
  cases hc : c.incAll s.cw e.moves with
  | none => exact .inl ⟨rfl, fun x => by simp only [State.variant_counters, State.variant_cw, hc]; rfl⟩
  | some c' => exact .inr ⟨c', rfl, fun x => by simp only [State.variant_counters, State.variant_cw, hc]; rfl⟩

/-- Closing leaves the counters and the scratch as it finds them, or faults. -/
theorem Ending.close_variant (e : Ending) (f : Option Byte) (s : State) :
    (∀ c x, e.close f (s.variant c x) = (e.close f s).variant c x) ∨
    (∃ k, ∀ c x, e.close f (s.variant c x) = takeFault k s) := by
  cases e with
  | faults k => exact .inr ⟨k, fun _ _ => rfl⟩
  | success payload =>
    refine .inl fun c x => ?_
    simp only [Ending.close]
    split <;> rfl
  | waits p => exact .inl fun _ _ => rfl
  | streamError => exact .inl fun _ _ => rfl
  | sizeDrop => exact .inl fun _ _ => rfl
  | footerDrop => exact .inl fun _ _ => rfl

/-- The scratch an ending meets shows in no other part of the state it comes to. -/
theorem Ending.run_variant_scratch (e : Ending) (f : Option Byte) (s : State) (c : Counters)
    (x x' : Scratch) : ∃ y, e.run f (s.variant c x') = (e.run f (s.variant c x)).setScratch y := by
  rcases e.run_variant_cases f s c with ⟨-, h⟩ | ⟨c', -, h⟩
  · exact ⟨_, by rw [h, h]; rfl⟩
  · rw [h, h]
    rcases e.close_variant f s with hv | ⟨k, hv⟩
    · exact ⟨x', by rw [hv, hv]; rfl⟩
    · exact ⟨_, by rw [hv, hv]; rfl⟩

/-- An ending without a fault moves its counters and otherwise comes to a state they have no part in. -/
theorem Ending.run_variant_of_clear {e : Ending} {c : Counters} {x : Scratch}
    (h : (e.run f (s.variant c x)).fault = false) :
    ∃ c', e.run f (s.variant c x) = (e.close f s).variant c' x ∧
      ∀ y, c'.get y = c.get y + e.moves.count y := by
  rcases e.run_variant_cases f s c with ⟨-, hr⟩ | ⟨c', hc, hr⟩
  · rw [hr, takeFault_fault] at h
    cases h
  · rcases e.close_variant f s with hv | ⟨k, hv⟩
    · exact ⟨c', (hr x).trans (hv c' x), Counters.incAll_get hc⟩
    · rw [hr, hv, takeFault_fault] at h
      cases h

end Sys2Proof.Machine
end

section
/-! Reads at a full counter (10_state.md R16), and what a stream error does to the counters
(60_exceptions.md R110). -/

namespace Sys2Proof.Machine

variable {s v : State} {f : Option Byte}

theorem dropSize_of_full (h : s.counters.framesDropped = 2 ^ s.cw - 1 ∨
    s.counters.droppedForInvalidSize = 2 ^ s.cw - 1) : dropSize s = takeFault .cntOverflow s := by
  rcases h with h | h
  · exact count_of_full (x := .framesDropped) _ (by decide) (by decide) h
  · exact count_of_full (x := .droppedForInvalidSize) _ (by decide) (by decide) h

theorem dropFooter_of_full (h : s.counters.framesDropped = 2 ^ s.cw - 1 ∨
    s.counters.droppedForInvalidFooter = 2 ^ s.cw - 1) : dropFooter s = takeFault .cntOverflow s := by
  rcases h with h | h
  · exact count_of_full (x := .framesDropped) _ (by decide) (by decide) h
  · exact count_of_full (x := .droppedForInvalidFooter) _ (by decide) (by decide) h

theorem readFinish_of_bad_footer {body : List Byte} (h : s.scratch.rftr ≠ ⟨0xA5, 0xA5, 0xA5, 0xA5⟩) :
    readFinish f body s = dropFooter s := by
  have hf : footerMatches s.scratch.rftr = false := by
    rw [Bool.eq_false_iff]
    exact fun hm => h ((footerMatches_iff _).1 hm)
  exact if_pos hf

theorem readFinish_of_full {body : List Byte} (h : s.scratch.rftr = ⟨0xA5, 0xA5, 0xA5, 0xA5⟩)
    (hb : f = none ∨ body ≠ []) (hfull : s.counters.framesRead = 2 ^ s.cw - 1) :
    readFinish f body s = takeFault .cntOverflow s := by
  have hf := (footerMatches_iff _).2 h
  rcases readFinish_cases f body s with ⟨hbad, -⟩ | ⟨-, hsome, hnil, -⟩ | ⟨-, -, e⟩
  · rw [hf] at hbad
    cases hbad
  · rcases hb with rfl | hne
    · cases hsome
    · exact absurd hnil hne
  · rw [e]
    exact count_of_full (x := .framesRead) _ (by decide) (by decide) hfull

theorem ioError_of_counted (h : Config.ioErrIncDropped = true)
    (hfull : s.counters.framesDropped = 2 ^ s.cw - 1) : ioError s = takeFault .cntOverflow s := by
  unfold ioError
  rw [if_pos h]
  exact count_of_full (x := .framesDropped) _ (by decide) (by decide) hfull

theorem ioError_of_uncounted (h : ¬ Config.ioErrIncDropped = true) :
    ioError s = s.respondNone .ioError := by
  unfold ioError
  rw [if_neg h]
  rfl

/-- A read that comes to `CNT_OVERFLOW` from a state with `FAULT` = 0 records it and answers with it. -/
theorem exec_readCommand_of_overflow {u : State} (hs : s.fault = false) (h : readHeader f s = u)
    (hu : u = takeFault .cntOverflow v) (hv : v.fault = false) :
    ∃ (t : State) (a : Response), exec (readCommand f) s = .next t ∧
      t.fault = true ∧ t.fcause = 10 ∧ t.response = some a ∧ a.cause = 10 :=
  ⟨_, _, (exec_readCommand f hs).trans (congrArg _ (h.trans hu)), rfl, by simp [hv, FaultCause.code], rfl, rfl⟩

end Sys2Proof.Machine
end

section
/-! The statements of 10_state.md: reset, the counters, the fault record, scratch, and the invariant. -/

namespace Sys2Proof.Machine

/-- Settles O48: a step that takes no fault names no counter twice. -/
theorem countersOnlyGoUp : Obligations.CountersOnlyGoUp := by
  intro s t h ht
  cases step_recordEffect h with
  | kept _ htrue _ => rw [ht] at htrue; cases htrue
  | taken _ _ _ htrue _ _ _ => rw [ht] at htrue; cases htrue
  | clear xs _ _ _ hcounts hget =>
    have hmove (x : CounterName) :
        t.counters.get x = s.counters.get x ∨ t.counters.get x = s.counters.get x + 1 := by
      have hget := hget x
      have hle := hcounts.count_le_one x
      omega
    exact ⟨hmove .framesRead, hmove .framesDropped, hmove .droppedForInvalidSize,
      hmove .droppedForInvalidFooter⟩

/-- Settles O54: the bounds and the waiting command by `stepClosed_bounded`, the fault record and the
drops by `step_recordEffect`. -/
theorem stepKeepsInvariant : Obligations.StepKeepsInvariant := by
  intro s t hs h
  obtain ⟨⟨hcnt, hsrc, hpend⟩, htr⟩ :=
    stepClosed_bounded.step hs.bounded ⟨hs.bounded, hs.transferOk⟩
      (fun tr htr _ => (hs.transferOk tr htr).2.2) h
  obtain ⟨hzero, hcode⟩ := hs.faultRecordOk
  have heffect := step_recordEffect h
  have hrecord : t.FaultRecordOk := by
    cases heffect with
    | kept hf ht hcause => exact ⟨by simp [ht], fun _ => hcause ▸ hcode hf⟩
    | taken c _ _ ht _ _ hcause => exact ⟨by simp [ht], fun _ => hcause ▸ c.code_range⟩
    | clear _ hf ht hcause _ _ => exact ⟨fun _ => hcause.trans (hzero hf), by simp [ht]⟩
  have hdrops : t.DropsCovered := by
    intro ht
    cases heffect with
    | kept _ htrue _ => rw [ht] at htrue; cases htrue
    | taken _ _ _ htrue _ _ _ => rw [ht] at htrue; cases htrue
    | clear xs hf _ _ hcounts hget =>
      have hbefore := hs.dropsCovered hf
      have hreasons := hcounts.reasons_le_drops
      have hdrop := hget .framesDropped
      have hsize := hget .droppedForInvalidSize
      have hfooter := hget .droppedForInvalidFooter
      simp only [Counters.get] at hdrop hsize hfooter
      omega
  exact ⟨hcnt, hsrc, hrecord, hdrops, htr, hpend⟩

/-- Settles O55: of the moves a step without a fault makes, the counted stream error alone moves the drops
without a reason. -/
theorem stepKeepsDropSum : Obligations.StepKeepsDropSum := by
  refine ⟨fun _ => rfl, fun s t hs h => ?_⟩
  cases step_recordEffect h with
  | kept _ ht _ => exact .inr fun hf => by rw [ht] at hf; cases hf
  | taken _ _ _ ht _ _ _ => exact .inr fun hf => by rw [ht] at hf; cases hf
  | clear xs hf _ _ hcounts hget =>
    rcases hcounts.streamError_or_drops_eq with ⟨hcfg, hresp, rfl⟩ | heq
    · refine .inl ⟨hcfg, hresp, Counters.ext_get fun x => ?_⟩
      rw [hget x]
      cases x <;> rfl
    · refine .inr fun _ => ?_
      have hbefore := hs hf
      have hdrop := hget .framesDropped
      have hsize := hget .droppedForInvalidSize
      have hfooter := hget .droppedForInvalidFooter
      simp only [Counters.get] at hdrop hsize hfooter
      omega

/-- Settles O47, by the three things a step can do to the fault record. -/
theorem faultRecordIsSticky : Obligations.FaultRecordIsSticky := by
  intro s t h
  cases step_recordEffect h with
  | kept hs ht hcause => simp [hs, ht, hcause]
  | taken c a hs ht hresp ha hcause =>
    refine ⟨by simp [hs], fun _ _ => ⟨a, hresp, hcause.trans ha.symm, ?_⟩, by simp [ht]⟩
    rw [ha]
    exact c.code_cases
  | clear _ hs ht hcause _ _ => simp [hs, ht, hcause]

/-- Settles O51: the two runs come to one ending in states that differ in scratch alone. -/
theorem readObservesNoStaleScratch : Obligations.ReadObservesNoStaleScratch := by
  intro s x filter hs
  obtain ⟨e, v, hdec⟩ := readHeader_decides s filter
  obtain ⟨x1, h1⟩ := hdec s.scratch trivial
  obtain ⟨x2, h2⟩ := hdec x trivial
  obtain ⟨y, hy⟩ := e.run_variant_scratch filter v s.counters x1 x2
  have hrun : readHeader filter { s with scratch := x } = (readHeader filter s).setScratch y := by
    rw [← h1, ← h2] at hy
    exact hy
  exact ⟨_, _, exec_readCommand filter hs, exec_readCommand filter hs, by simp [hrun]⟩

/-- Settles O52: the two runs come to one ending, which adds the same to whatever counters it meets. -/
theorem countersDecideNothing : Obligations.CountersDecideNothing := by
  intro s t t' c filter h h' hs ht ht'
  rw [exec_readCommand filter hs] at h
  rw [exec_readCommand filter (by exact hs)] at h'
  cases h
  cases h'
  obtain ⟨e, v, hdec⟩ := readHeader_decides s filter
  obtain ⟨x, hx⟩ := hdec s.scratch trivial
  have hrun : readHeader filter s = e.run filter (v.variant s.counters x) := hx s.counters
  have hrun' : readHeader filter { s with counters := c } = e.run filter (v.variant c x) := hx c
  rw [hrun] at ht ⊢
  rw [hrun'] at ht' ⊢
  obtain ⟨c1, h1, hget1⟩ := Ending.run_variant_of_clear ht
  obtain ⟨c2, h2, hget2⟩ := Ending.run_variant_of_clear ht'
  have hbalance (y : CounterName) : c2.get y + s.counters.get y = c1.get y + c.get y := by
    rw [hget1, hget2]
    omega
  rw [h1, h2]
  exact ⟨rfl, rfl, rfl, rfl, hbalance .framesRead, hbalance .framesDropped,
    hbalance .droppedForInvalidSize, hbalance .droppedForInvalidFooter⟩

/-- Settles O32: each clause comes to a count in a full counter. -/
theorem fullCounterFaults : Obligations.FullCounterFaults := by
  intro s filter hs h
  rcases h with ⟨given, later, ha, hlt, hfull⟩ | ⟨hdr, rest, avail, later, hk, hlt, hfull⟩ |
    ⟨hdr, body, ftr, rest, later, harr, h⟩
  · exact exec_readCommand_of_overflow hs (readHeader_of_short ha hlt) (dropSize_of_full hfull) hs
  · have hread := (readHeader_of_sizeKnown (f := filter) hk).1
    rw [if_neg (Nat.not_le.2 hlt)] at hread
    exact exec_readCommand_of_overflow hs hread (dropSize_of_full hfull) hs
  · have hread := readHeader_of_frameArrives (f := filter) harr
    rcases h with ⟨hbad, hfull⟩ | ⟨hgood, hbody, hfull⟩
    · exact exec_readCommand_of_overflow hs (hread.trans (readFinish_of_bad_footer hbad))
        (dropFooter_of_full hfull) hs
    · exact exec_readCommand_of_overflow hs hread (readFinish_of_full hgood hbody hfull) hs

/-- Settles O57: the read comes to `ioError` with the counters it started with. -/
theorem streamErrorAtFullCounter : Obligations.StreamErrorAtFullCounter := by
  intro s filter later hs herr hfull
  obtain ⟨k, r, h⟩ := readHeader_of_meetsErr (f := filter) herr
  by_cases hcfg : Config.ioErrIncDropped = true
  · simp only [if_pos hcfg]
    obtain ⟨t, a, he, hf, hcause, hresp, ha⟩ :=
      exec_readCommand_of_overflow hs h (ioError_of_counted hcfg hfull) hs
    exact ⟨t, a, he, hresp, hf, hcause, ha⟩
  · simp only [if_neg hcfg]
    rw [ioError_of_uncounted hcfg] at h
    exact ⟨_, _, (exec_readCommand filter hs).trans (congrArg _ h), rfl, rfl, hs, rfl, rfl⟩

/-- Settles O1: the fields of `State.reset`. -/
theorem resetClearsCountersAndFaultRecord : Obligations.ResetClearsCountersAndFaultRecord :=
  ⟨rfl, rfl, rfl, rfl, rfl, rfl⟩

/-- Settles O45, by what `CNTRD` does for the status word, a counter, and a reserved number. -/
theorem cntrdWorksAfterFault : Obligations.CntrdWorksAfterFault := by
  intro s hs
  refine ⟨?_, fun idx hidx => ?_, fun idx hidx => ?_⟩
  · have hstatus : (statusWord s.fault s.fcause).toNat = s.fcause.toNat * 16 + 1 := by
      rw [statusWord_toNat, hs]
      rfl
    rw [exec_cntrd_four, hstatus]
    rfl
  · obtain ⟨x, hx⟩ := Option.isSome_iff_exists.1 (counterOf?_isSome idx hidx)
    exact ⟨_, Nat.mod_lt _ (Nat.two_pow_pos s.cw), exec_cntrd_of_counter_after_fault hs hx⟩
  · obtain ⟨hx, h4⟩ := counterOf?_reserved idx hidx
    exact ⟨_, _, exec_cntrd_of_reserved s hx h4, rfl, by simp [hs], rfl, rfl⟩

/-- Settles O46: every such command is `undefinedCommand`. -/
theorem commandAfterFaultIsUndefined : Obligations.CommandAfterFaultIsUndefined := by
  intro i s hs hi
  exact ⟨_, _, exec_of_fault hs hi, rfl, hs, rfl, rfl, rfl, rfl, rfl, Counters.within_fits _ _, rfl,
    Source.jump_inRange _ _⟩

/-- Settles O53: nothing is counted, waiting or pending after reset. -/
theorem resetMeetsInvariant : Obligations.ResetMeetsInvariant where
  countersFit := by unfold Counters.Fits; decide
  sourceInRange := Nat.zero_le _
  faultRecordOk := ⟨fun _ => rfl, fun h => by cases h⟩
  dropsCovered _ := Nat.zero_le _
  transferOk := State.transferOk_of_none rfl
  pendingOk r hr := by cases hr

end Sys2Proof.Machine
end

section
/-! The source as a read meets it (20_memory.md R36 to R38): what the plain source answers, how
far it carries a read, and how a read ends that meets `Err` or none of the source's failures. -/

namespace Sys2Proof.Machine

variable {s : State} {f : Option Byte} {hdr : Bytes8} {rest : List Byte} {avail : Nat}
  {later : List Answer}

theorem State.PlainSource.answered (hp : s.PlainSource) :
    Answered s.source.answers s.upcoming.length s.upcoming.length [] := by
  rw [hp.1]
  exact answered_plain _

/-- On the plain source `SrcRead(k)` gives the next `k` bytes, or as many as there are. -/
theorem State.PlainSource.srcRead_eq (hp : s.PlainSource) (k : Nat) :
    srcRead k s = (.answer (s.upcoming.take k), s.past (min k s.source.left) s.source.answers) := by
  by_cases hk : k = 0
  · subst hk
    simp [srcRead, State.setSource]
  · rw [srcRead_answered hk hp.answered, ← List.take_eq_take_min, ← s.left_eq, hp.1]

/-- On the plain source `SrcAvail()` reports all that is left. -/
theorem State.PlainSource.srcAvail_eq (hp : s.PlainSource) : srcAvail s = (.answer s.source.left, s) := by
  rw [srcAvail_answered hp.answered, ← s.left_eq, ← hp.1]
  rfl

/-- A declared length that passes the size check and is less than header and footer take. -/
theorem readHeader_of_underflow (h : s.SizeKnown hdr rest avail later) (hlt : declared hdr < 12)
    (hle : declared hdr ≤ 8 + avail) :
    readHeader f s = takeFault .lenUnderflow ((s.past 8 later).setRhdr hdr) := by
  have hnone : payloadLength (headerLength hdr) = none :=
    payloadLength_of_lt (by rw [headerLength_toNat]; exact hlt)
  rw [(readHeader_of_sizeKnown h).1, if_pos hle]
  simp only [readPayload, State.setRhdr_scratch, hnone]

theorem Bytes8.exists_toList_append {l : List Byte} (h : 8 ≤ l.length) :
    ∃ (b : Bytes8) (rest : List Byte), l = b.toList ++ rest := by
  cases hb : Bytes8.ofList? (l.take 8) with
  | none => exact absurd (by rw [List.length_take]; omega) (Bytes8.ofList?_eq_none.1 hb)
  | some b => exact ⟨b, l.drop 8, by rw [← Bytes8.ofList?_eq_some hb, List.take_append_drop]⟩

theorem Bytes4.exists_toList_append {l : List Byte} (h : 4 ≤ l.length) :
    ∃ (b : Bytes4) (rest : List Byte), l = b.toList ++ rest := by
  cases hb : Bytes4.ofList? (l.take 4) with
  | none => exact absurd (by rw [List.length_take]; omega) (Bytes4.ofList?_eq_none.1 hb)
  | some b => exact ⟨b, l.drop 4, by rw [← Bytes4.ofList?_eq_some hb, List.take_append_drop]⟩

/-- How far the plain source carries a read: the header is short, the declared length is more than is left or
less than 12, or the whole frame arrives. -/
theorem State.PlainSource.arrival_cases (hp : s.PlainSource) :
    s.upcoming.length < 8 ∨
    ∃ hdr rest, s.SizeKnown hdr rest rest.length [] ∧
      (8 + rest.length < declared hdr ∨
        (declared hdr < 12 ∧ declared hdr ≤ 8 + rest.length) ∨
        ∃ body ftr rest', s.FrameArrives hdr body ftr rest' []) := by
  rcases Nat.lt_or_ge s.upcoming.length 8 with hshort | hlong
  · exact .inl hshort
  obtain ⟨hdr, rest, hu⟩ := Bytes8.exists_toList_append hlong
  refine .inr ⟨hdr, rest, hp.sizeKnown hu, ?_⟩
  rcases Nat.lt_or_ge (8 + rest.length) (declared hdr) with hover | hfits
  · exact .inl hover
  rcases Nat.lt_or_ge (declared hdr) 12 with hunder | h12
  · exact .inr (.inl ⟨hunder, hfits⟩)
  obtain ⟨ftr, rest', hftr⟩ := Bytes4.exists_toList_append
    (l := rest.drop (declared hdr - 12)) (by rw [List.length_drop]; omega)
  refine .inr (.inr ⟨rest.take (declared hdr - 12), ftr, rest', hp.frameArrives ?_ ?_⟩)
  · rw [hu, List.append_assoc, ← hftr, List.take_append_drop]
  · rw [List.length_take]
    omega

/-- A stream error that meets no full counter it would count in. -/
theorem ioError_of_room
    (h : Config.ioErrIncDropped = true → s.counters.framesDropped ≠ 2 ^ s.cw - 1) :
    ioError s = State.respondNone (s.setCounters { s.counters with
      framesDropped :=
        s.counters.framesDropped + if Config.ioErrIncDropped = true then 1 else 0 }) .ioError := by
  by_cases hcfg : Config.ioErrIncDropped = true
  · simp [ioError, count, Counters.incAll, Counters.inc, Counters.get, Counters.set, hcfg, h hcfg]
  · rw [ioError_of_uncounted hcfg, if_neg hcfg]
    rfl

/-- A read has ended with a response, and neither it nor a fault tells of a source that failed. -/
def State.EndsWithoutSourceFailure (t : State) : Prop :=
  t.transfer = none ∧ ∃ a, t.response = some a ∧ a.cause ≠ 4 ∧ a.cause ≠ 12 ∧
    (t.fault = true → t.fcause ≠ 12)

theorem takeFault_endsWithoutSourceFailure {c : FaultCause} (hs : s.fault = false) (hc : c ≠ .shortBody) :
    (takeFault c s).EndsWithoutSourceFailure := by
  have hcode : c.code ≠ 4 ∧ c.code ≠ 12 := by
    cases c with
    | shortBody => exact absurd rfl hc
    | _ => decide
  exact ⟨rfl, _, rfl, hcode.1, hcode.2, fun _ => by simpa [hs] using hcode.2⟩

theorem respondSome_endsWithoutSourceFailure (d : Data) (hs : s.fault = false) :
    (s.respondSome d).EndsWithoutSourceFailure :=
  ⟨rfl, _, rfl, show Cause.ok.code ≠ 4 by decide, show Cause.ok.code ≠ 12 by decide,
    fun h => by simp [hs] at h⟩

theorem respondNone_endsWithoutSourceFailure {c : Cause} (hs : s.fault = false) (hc : c ≠ .ioError) :
    (s.respondNone c).EndsWithoutSourceFailure := by
  have hcode : c.code ≠ 4 ∧ c.code ≠ 12 := by
    cases c with
    | ioError => exact absurd rfl hc
    | _ => decide
  exact ⟨rfl, _, rfl, hcode.1, hcode.2, fun h => by simp [hs] at h⟩

theorem count_endsWithoutSourceFailure {xs : List CounterName} {k : State → State} (hs : s.fault = false)
    (hk : ∀ v : State, v.fault = false → (k v).EndsWithoutSourceFailure) :
    (count xs s k).EndsWithoutSourceFailure := by
  rcases count_cases xs s k with ⟨-, e⟩ | ⟨c, -, e⟩
  · rw [e]
    exact takeFault_endsWithoutSourceFailure hs (by decide)
  · rw [e]
    exact hk _ hs

theorem dropSize_endsWithoutSourceFailure (hs : s.fault = false) :
    (dropSize s).EndsWithoutSourceFailure :=
  count_endsWithoutSourceFailure hs fun _ hv => respondNone_endsWithoutSourceFailure hv (by decide)

theorem readFinish_endsWithoutSourceFailure (body : List Byte) (hs : s.fault = false) :
    (readFinish f body s).EndsWithoutSourceFailure := by
  rcases readFinish_cases f body s with ⟨-, e⟩ | ⟨-, -, -, e⟩ | ⟨-, -, e⟩
  · rw [e]
    exact count_endsWithoutSourceFailure hs fun _ hv => respondNone_endsWithoutSourceFailure hv (by decide)
  · rw [e]
    exact takeFault_endsWithoutSourceFailure hs (by decide)
  · rw [e]
    refine count_endsWithoutSourceFailure hs fun v hv => ?_
    split
    · exact respondSome_endsWithoutSourceFailure _ hv
    · exact respondNone_endsWithoutSourceFailure hv (by decide)

/-- Each of the four ways the plain source can carry a read. -/
theorem State.PlainSource.readHeader_endsWithoutSourceFailure (hp : s.PlainSource) (hs : s.fault = false) :
    (readHeader f s).EndsWithoutSourceFailure := by
  rcases hp.arrival_cases with
    hshort | ⟨hdr, rest, hk, hover | ⟨hunder, hfits⟩ | ⟨body, ftr, rest', harr⟩⟩
  · rw [readHeader_of_short hp.answered hshort]
    exact dropSize_endsWithoutSourceFailure hs
  · rw [(readHeader_of_sizeKnown hk).1, if_neg (Nat.not_le.2 hover)]
    exact dropSize_endsWithoutSourceFailure hs
  · rw [readHeader_of_underflow hk hunder hfits]
    exact takeFault_endsWithoutSourceFailure hs (by decide)
  · rw [readHeader_of_frameArrives harr]
    exact readFinish_endsWithoutSourceFailure body hs

end Sys2Proof.Machine
end

section
/-! The statements of 20_memory.md: the source, and the reads that meet its failures. -/

namespace Sys2Proof.Machine

/-- Settles O33: the read comes to `ioError`, with room to count where it counts. -/
theorem streamErrorEndsRead : Obligations.StreamErrorEndsRead := by
  intro s filter later hs herr hroom
  obtain ⟨k, r, h⟩ := readHeader_of_meetsErr (f := filter) herr
  rw [ioError_of_room (by exact hroom)] at h
  exact ⟨_, (exec_readCommand filter hs).trans (congrArg _ h), rfl, hs, rfl, rfl, rfl,
    Source.jump_inRange _ _, rfl, rfl, rfl, rfl, rfl, rfl, rfl⟩

/-- Settles O34: the read comes to `SHORT_BODY` with `FAULT` still 0. -/
theorem shortBodyFaults : Obligations.ShortBodyFaults := by
  intro s filter hs hshort
  obtain ⟨v, h, hv⟩ := readHeader_of_meetsShortBody (f := filter) hshort
  exact ⟨_, _, (exec_readCommand filter hs).trans (congrArg _ h), rfl, by simp [hv, hs, FaultCause.code],
    rfl, rfl⟩

/-- Settles O35, by how far the plain source carries a read. -/
theorem plainSourceNeverFailsRead : Obligations.PlainSourceNeverFailsRead := by
  intro s filter hs hp
  obtain ⟨htr, a, hresp, h4, h12, hcause⟩ := hp.readHeader_endsWithoutSourceFailure (f := filter) hs
  exact ⟨_, a, exec_readCommand filter hs, htr, hresp, h4, h12, hcause⟩

/-- Settles O24: what the plain source answers; a read of no bytes does not look at the source. -/
theorem sourceGivesBytesFromCursor : Obligations.SourceGivesBytesFromCursor :=
  ⟨fun _ k hp => ⟨hp.srcRead_eq k, hp.srcAvail_eq⟩, fun _ => rfl⟩

end Sys2Proof.Machine
end

section
/-! The command word as its fields and as a number (30_encoding.md R58), and what follows for the decoder:
a word decodes to a command exactly when it is the word of that command. -/

namespace Sys2Proof

variable {w : CmdWord} {i : Instr}

/-- Two fields side by side, as a number. -/
theorem append_toNat {m n : Nat} (x : BitVec m) (y : BitVec n) :
    (x ++ y).toNat = x.toNat * 2 ^ n + y.toNat := by
  rw [BitVec.toNat_append, ← Nat.shiftLeft_add_eq_or_of_lt y.isLt, Nat.shiftLeft_eq]

theorem encode_toNat (i : Instr) : (encode i).toNat = (argument i).toNat * 256 + (opcode i).toNat :=
  calc (encode i).toNat
    _ = (argument i).toNat * 2 ^ (4 + 4) + ((0 : BitVec 4) ++ opcode i).toNat := append_toNat _ _
    _ = (argument i).toNat * 256 + (0 * 2 ^ 4 + (opcode i).toNat) :=
      congrArg ((argument i).toNat * 256 + ·) (append_toNat _ _)
    _ = (argument i).toNat * 256 + (opcode i).toNat := by rw [Nat.zero_mul, Nat.zero_add]

/-- A word is given by its low byte, the opcode with the zero field, and its high byte, the argument. -/
theorem eq_encode_iff :
    w = encode i ↔ w.toNat % 256 = (opcode i).toNat ∧ w.toNat / 256 = (argument i).toNat := by
  have hop := (opcode i).isLt
  rw [← BitVec.toNat_inj, encode_toNat]
  omega

/-- The fields of a word, put together again. -/
theorem fields_append (w : CmdWord) : arg8Field w ++ (zeroField w ++ opField w) = w := by
  have hlow : zeroField w ++ opField w = w.extractLsb' 0 8 :=
    BitVec.extractLsb'_append_extractLsb'_eq_extractLsb' rfl
  rw [hlow]
  exact BitVec.extractLsb'_append_extractLsb'

/-- A field within the argument, read from the word. -/
theorem extractLsb'_arg8Field (w : CmdWord) (k n : Nat) (h : k + n ≤ 8) :
    (arg8Field w).extractLsb' k n = w.extractLsb' (8 + k) n := by
  ext j hj
  have hj8 : k + j < 8 := by omega
  simp [arg8Field, hj8, Nat.add_assoc]

theorem idxField_eq (w : CmdWord) : idxField w = (arg8Field w).extractLsb' 0 3 :=
  (extractLsb'_arg8Field w 0 3 (by decide)).symm

theorem idxHighField_eq (w : CmdWord) : idxHighField w = (arg8Field w).extractLsb' 3 5 :=
  (extractLsb'_arg8Field w 3 5 (by decide)).symm

/-- A register number in three bits, and zeros above it, are `CNTRD`'s argument (30_encoding.md R58). -/
theorem cntrd_argument_iff : ∀ (a : Byte) (idx : BitVec 3),
    a = argument (.cntrd idx) ↔ a.extractLsb' 3 5 = 0 ∧ a.extractLsb' 0 3 = idx := by decide

theorem wordFields : ∀ i : Instr, Laws.WordFields.Statement i
  | .hdrenc => Laws.WordFields.hdrenc
  | .ftrgen => Laws.WordFields.ftrgen
  | .hdrdec => Laws.WordFields.hdrdec
  | .szchk => Laws.WordFields.szchk
  | .plen => Laws.WordFields.plen
  | .ftrchk => Laws.WordFields.ftrchk
  | .catchk => Laws.WordFields.catchk
  | .encode => Laws.WordFields.encode
  | .read => Laws.WordFields.read
  | .readc cat => Laws.WordFields.readc cat
  | .cntrd idx => Laws.WordFields.cntrd idx

/-- The fields of a word decide the row it selects and the argument (30_encoding.md R59). -/
theorem decode_of_fields (hzero : zeroField w = 0) (hop : opField w = opcode i)
    (harg : arg8Field w = argument i) : decode w = .ok i := by
  cases i with
  | cntrd idx =>
    obtain ⟨hhigh, hidx⟩ := (cntrd_argument_iff _ idx).1 harg
    simp [decode, hzero, hop, opcode, idxHighField_eq, idxField_eq, hhigh, hidx]
  | readc cat => simp [decode, hzero, hop, opcode, harg, argument]
  | _ => simp [decode, hzero, hop, opcode, decodeNoArg, harg, argument]

theorem fields_of_decodeNoArg {j : Instr} (h : decodeNoArg w j = .ok i)
    (hop : (opField w).toNat = (opcode j).toNat) (harg : argument j = 0) :
    opField w = opcode i ∧ arg8Field w = argument i := by
  unfold decodeNoArg at h
  split at h
  · rename_i hzero
    cases h
    exact ⟨BitVec.eq_of_toNat_eq hop, hzero.trans harg.symm⟩
  · cases h

/-- A word that decodes has the fields of the command it decodes to. -/
theorem fields_of_decode (h : decode w = .ok i) :
    zeroField w = 0 ∧ opField w = opcode i ∧ arg8Field w = argument i := by
  unfold decode at h
  split at h
  · cases h
  rename_i hzero
  refine ⟨not_not.1 hzero, ?_⟩
  split at h
  case h_1 hop | h_2 hop | h_3 hop | h_4 hop | h_5 hop | h_6 hop | h_7 hop | h_8 hop | h_9 hop =>
    exact fields_of_decodeNoArg h hop rfl
  case h_10 hop =>
    cases h
    exact ⟨BitVec.eq_of_toNat_eq hop, rfl⟩
  case h_11 hop =>
    split at h
    · rename_i hhigh
      cases h
      exact ⟨BitVec.eq_of_toNat_eq hop,
        (cntrd_argument_iff _ _).2 ⟨(idxHighField_eq w).symm.trans hhigh, (idxField_eq w).symm⟩⟩
    · cases h
  case h_12 => cases h

/-- The decoder and the encoder are each other's inverse, over every word and every command. -/
theorem decode_eq_ok_iff : decode w = .ok i ↔ w = encode i := by
  constructor
  · intro h
    obtain ⟨hzero, hop, harg⟩ := fields_of_decode h
    rw [← fields_append w, hzero, hop, harg, encode]
  · rintro rfl
    obtain ⟨hzero, hop, harg, -⟩ := wordFields i
    exact decode_of_fields hzero hop harg

theorem decode_encode (i : Instr) : decode (encode i) = .ok i := decode_eq_ok_iff.2 rfl

/-- A 16-bit table word is the command word itself. -/
theorem ofNat_toNat_mod (w : CmdWord) : BitVec.ofNat 16 (w.toNat % 2 ^ 16) = w := by
  rw [Nat.mod_eq_of_lt w.isLt, BitVec.ofNat_toNat, BitVec.setWidth_eq]

end Sys2Proof
end

section
/-! The legal and the illegal words, as numbers (30_encoding.md R60), and what the block does with a word. -/

namespace Sys2Proof.Machine

variable {s : State} {w : CmdWord} {i : Instr} {r : Request} {rest : List Request}

/-- A word's low byte, as a mask reads it. -/
theorem and_low_byte_iff {k : CmdWord} : w &&& 0x00FF = k ↔ w.toNat % 256 = k.toNat := by
  rw [← BitVec.toNat_inj, BitVec.toNat_and, ← Nat.and_two_pow_sub_one_eq_mod w.toNat 8]
  rfl

/-- The mask of a command without argument keeps the whole word. -/
theorem decode_eq_ok_iff_whole : decode w = .ok i ↔ w &&& 0xFFFF = encode i := by
  rw [decode_eq_ok_iff, show w &&& 0xFFFF = w from BitVec.and_allOnes]

theorem argument_cntrd_toNat (idx : BitVec 3) : (argument (.cntrd idx)).toNat = idx.toNat := by
  revert idx
  decide

theorem decode_eq_readc_iff (cat : Byte) :
    decode w = .ok (.readc cat) ↔ w &&& 0x00FF = 0x000A ∧ w.toNat / 256 = cat.toNat := by
  rw [decode_eq_ok_iff, eq_encode_iff, and_low_byte_iff]
  rfl

/-- `CNTRD`'s mask keeps the low byte and bits 15:11, which are 0 where the high byte is a register number. -/
theorem decode_eq_cntrd_iff (idx : BitVec 3) :
    decode w = .ok (.cntrd idx) ↔ w &&& 0xF8FF = 0x000B ∧ w.toNat / 256 = idx.toNat := by
  rw [decode_eq_ok_iff]
  constructor
  · rintro rfl
    revert idx
    decide
  · rintro ⟨hmask, hidx⟩
    have hlow : w &&& 0x00FF = 0x000B := by
      have h := congrArg (· &&& 0x00FF) hmask
      rwa [BitVec.and_assoc] at h
    have hop : w.toNat % 256 = 11 := and_low_byte_iff.1 hlow
    exact eq_encode_iff.2 ⟨hop, hidx.trans (argument_cntrd_toNat idx).symm⟩

theorem legalWord_eq_true_iff :
    legalWord w = true ↔ ∃ i : Instr, i.wellFormed = true ∧ w = encode i := by
  unfold legalWord
  constructor
  · intro h
    split at h
    · rename_i i hd
      exact ⟨i, h, decode_eq_ok_iff.1 hd⟩
    · cases h
  · rintro ⟨i, hi, rfl⟩
    rw [decode_encode]
    exact hi

/-- Opcodes 1 to 9 are those of the commands without argument (30_encoding.md R59). -/
theorem exists_command_without_argument :
    ∀ n, 1 ≤ n → n ≤ 9 → ∃ i : Instr, i.wellFormed = true ∧ (opcode i).toNat = n ∧ (argument i).toNat = 0
  | 1, _, _ => ⟨.hdrenc, rfl, rfl, rfl⟩
  | 2, _, _ => ⟨.ftrgen, rfl, rfl, rfl⟩
  | 3, _, _ => ⟨.hdrdec, rfl, rfl, rfl⟩
  | 4, _, _ => ⟨.szchk, rfl, rfl, rfl⟩
  | 5, _, _ => ⟨.plen, rfl, rfl, rfl⟩
  | 6, _, _ => ⟨.ftrchk, rfl, rfl, rfl⟩
  | 7, _, _ => ⟨.catchk, rfl, rfl, rfl⟩
  | 8, _, _ => ⟨.encode, rfl, rfl, rfl⟩
  | 9, _, _ => ⟨.read, rfl, rfl, rfl⟩

/-- A legal command's number is none of the illegal ones. -/
theorem not_illegalWord_encode (hi : i.wellFormed = true) : ¬ IllegalWord (encode i) := by
  unfold IllegalWord
  rw [encode_toNat]
  cases i with
  | readc cat =>
    have hop : (opcode (.readc cat)).toNat = 10 := rfl
    omega
  | cntrd idx =>
    have hidx : idx.toNat ≤ 4 := of_decide_eq_true hi
    have hop : (opcode (.cntrd idx)).toNat = 11 := rfl
    rw [argument_cntrd_toNat]
    omega
  | _ => decide

/-- A word outside the list is a legal command's word. -/
theorem exists_encode_of_not_illegalWord (h : ¬ IllegalWord w) :
    ∃ i : Instr, i.wellFormed = true ∧ w = encode i := by
  unfold IllegalWord at h
  have hlt := w.isLt
  simp only [eq_encode_iff]
  have hop : (1 ≤ w.toNat % 256 ∧ w.toNat % 256 ≤ 9 ∧ w.toNat / 256 = 0) ∨
      w.toNat % 256 = 10 ∨ (w.toNat % 256 = 11 ∧ w.toNat / 256 ≤ 4) := by omega
  rcases hop with ⟨h1, h9, harg⟩ | hop | ⟨hop, hidx⟩
  · obtain ⟨i, hi, hopi, hargi⟩ := exists_command_without_argument _ h1 h9
    exact ⟨i, hi, hopi.symm, harg.trans hargi.symm⟩
  · exact ⟨.readc (BitVec.ofNat 8 (w.toNat / 256)), rfl, hop,
      (Nat.mod_eq_of_lt (by omega)).symm⟩
  · have hnat : (BitVec.ofNat 3 (w.toNat / 256)).toNat = w.toNat / 256 :=
      Nat.mod_eq_of_lt (by omega)
    exact ⟨.cntrd (BitVec.ofNat 3 (w.toNat / 256)), by simp only [Instr.wellFormed, hnat, hidx, decide_true],
      hop, by rw [argument_cntrd_toNat, hnat]⟩

theorem legalWord_eq_false_iff : legalWord w = false ↔ IllegalWord w := by
  rw [← Bool.not_eq_true, legalWord_eq_true_iff]
  constructor
  · exact fun h => by_contra fun hw => h (exists_encode_of_not_illegalWord hw)
  · rintro h ⟨i, hi, rfl⟩
    exact not_illegalWord_encode hi h

/-- `CNTRD` of a reserved register is the only command that is not well formed. -/
theorem eq_cntrd_of_not_wellFormed (h : i.wellFormed = false) : ∃ idx, i = .cntrd idx ∧ 5 ≤ idx.toNat := by
  cases i with
  | cntrd idx => exact ⟨idx, rfl, Nat.not_le.1 (of_decide_eq_false h)⟩
  | _ => cases h

theorem runWord_of_decode (h : decode w = .ok i) (s : State) : runWord w s = exec i s := by
  rw [runWord, h]

/-- An illegal word faults, whether it selects no row or `CNTRD`'s with a reserved register (log entry 22). -/
theorem runWord_of_not_legal (h : legalWord w = false) (s : State) :
    runWord w s = .next (takeFault .illegalCmd s) := by
  unfold legalWord at h
  split at h
  · rename_i i hd
    obtain ⟨idx, rfl, hidx⟩ := eq_cntrd_of_not_wellFormed h
    obtain ⟨hx, h4⟩ := counterOf?_reserved idx hidx
    rw [runWord_of_decode hd, exec_cntrd_of_reserved s hx h4]
  · rename_i e hd
    rw [runWord, hd]

/-- With no command in progress a step accepts the host's next request and runs its word. -/
theorem step_of_request (htr : s.transfer = none) (hp : s.pending = r :: rest) :
    step s = runWord r.word (s.accept r rest) := by
  unfold step fetch
  rw [htr, hp]

end Sys2Proof.Machine
end

section
/-! The 64-bit and the 32-bit value of a port, byte 0 on top (30_encoding.md R61). -/

namespace Sys2Proof

theorem Bytes8.pack_toNat (b : Bytes8) : b.pack.toNat =
    b.b0.toNat * 2 ^ 56 + (b.b1.toNat * 2 ^ 48 + (b.b2.toNat * 2 ^ 40 + (b.b3.toNat * 2 ^ 32 +
    (b.b4.toNat * 2 ^ 24 + (b.b5.toNat * 2 ^ 16 + (b.b6.toNat * 2 ^ 8 + b.b7.toNat)))))) := by
  unfold pack
  iterate 7 refine (append_toNat _ _).trans (congrArg₂ (· + ·) rfl ?_)
  rfl

theorem Bytes4.pack_toNat (b : Bytes4) : b.pack.toNat =
    b.b0.toNat * 2 ^ 24 + (b.b1.toNat * 2 ^ 16 + (b.b2.toNat * 2 ^ 8 + b.b3.toNat)) := by
  unfold pack
  iterate 3 refine (append_toNat _ _).trans (congrArg₂ (· + ·) rfl ?_)
  rfl

theorem Bytes8.unpack_pack (b : Bytes8) : Bytes8.unpack b.pack = b := by
  have h := b.pack_toNat
  cases b
  simp only [unpack, Bytes8.mk.injEq, ← BitVec.toNat_inj, Machine.extractByte_toNat, h]
  omega

theorem Bytes4.unpack_pack (b : Bytes4) : Bytes4.unpack b.pack = b := by
  have h := b.pack_toNat
  cases b
  simp only [unpack, Bytes4.mk.injEq, ← BitVec.toNat_inj, Machine.extractByte_toNat, h]
  omega

end Sys2Proof
end

section
/-! Two reads of streams that look alike ahead of the cursor: they run through the same accesses to the same
ending, whatever the streams hold behind the cursor and whatever the reserved bytes of the header in `RHDR` are
(30_encoding.md R52). -/

namespace Sys2Proof.Machine

/-- The state on another stream, its cursor and answers kept, and with other scratch. -/
def State.onStream (s : State) (b : List Byte) (x : Scratch) : State :=
  (s.setSource { s.source with bytes := b }).setScratch x

/-- `b` has the stream's length and its bytes from the cursor on. -/
structure State.SameAhead (s : State) (b : List Byte) : Prop where
  length_eq : b.length = s.source.bytes.length
  drop_eq : b.drop s.source.pos = s.upcoming

/-- `t'` is `t` but for the stream's bytes, which are `b`, and the scratch. -/
def Mirrors (b : List Byte) (t t' : State) : Prop := ∃ x, t' = t.onStream b x

variable {s : State} {f : Option Byte} {b : List Byte} {x : Scratch} {given : Nat} {later : List Answer}

@[simp] theorem State.onStream_scratch : (s.onStream b x).scratch = x := by rfl
@[simp] theorem State.onStream_counters : (s.onStream b x).counters = s.counters := by rfl
@[simp] theorem State.onStream_cw : (s.onStream b x).cw = s.cw := by rfl

theorem State.onStream_upcoming (h : s.SameAhead b) : (s.onStream b x).upcoming = s.upcoming := h.drop_eq

theorem State.onStream_streamError (h : b.length = s.source.bytes.length) :
    (s.onStream b x).streamError = s.streamError.onStream b x := by
  simp only [State.streamError, State.onStream, State.setSource, State.setScratch, Source.jump, h]

theorem State.SameAhead.past (h : s.SameAhead b) (k : Nat) : (s.past k later).SameAhead b := by
  obtain ⟨hlen, hdrop⟩ := h
  refine ⟨hlen, ?_⟩
  unfold State.upcoming at hdrop ⊢
  simp only [State.setSource_source, ← List.drop_drop, hdrop]

theorem State.SameAhead.answered (h : s.SameAhead b)
    (ha : Answered s.source.answers s.upcoming.length given later) :
    Answered (s.onStream b x).source.answers (s.onStream b x).upcoming.length given later := by
  rwa [State.onStream_upcoming h]

theorem takeFault_mirrors (k : FaultCause) (h : b.length = s.source.bytes.length) :
    Mirrors b (takeFault k s) (takeFault k (s.onStream b x)) :=
  ⟨(Config.undefined s.tick).scratch, by
    simp only [takeFault, State.undefine, State.onStream, State.setSource, State.setScratch, Source.jump, h]⟩

theorem Ending.close_mirrors (e : Ending) (f : Option Byte) (h : b.length = s.source.bytes.length) :
    Mirrors b (e.close f s) (e.close f (s.onStream b x)) := by
  cases e with
  | faults k => exact takeFault_mirrors k h
  | success payload =>
    simp only [Ending.close]
    split <;> exact ⟨x, rfl⟩
  | waits p => exact ⟨x, rfl⟩
  | streamError => exact ⟨x, rfl⟩
  | sizeDrop => exact ⟨x, rfl⟩
  | footerDrop => exact ⟨x, rfl⟩

/-- One ending, from the state and from the state on the other stream. -/
theorem Ending.run_mirrors (e : Ending) (f : Option Byte) (x : Scratch)
    (h : b.length = s.source.bytes.length) :
    Mirrors b (e.run f s) (e.run f (s.onStream b x)) := by
  simp only [Ending.run, count, State.onStream_counters, State.onStream_cw]
  cases s.counters.incAll s.cw e.moves with
  | none => exact takeFault_mirrors _ h
  | some c => exact e.close_mirrors (s := s.setCounters c) f h

/-- The source gives no answer, or `Err`, or an answer. -/
theorem answered_cases (answers : List Answer) (left : Nat) :
    (∃ later, answers = .stall :: later) ∨ (∃ later, answers = .err :: later) ∨
    ∃ given later, Answered answers left given later := by
  match answers with
  | [] => exact .inr (.inr ⟨_, _, answered_plain left⟩)
  | .full :: later => exact .inr (.inr ⟨_, _, answered_full left later⟩)
  | .upTo m :: later => exact .inr (.inr ⟨_, _, answered_upTo m left later⟩)
  | .err :: later => exact .inr (.inl ⟨later, rfl⟩)
  | .stall :: later => exact .inl ⟨later, rfl⟩

theorem srcRead_stall {k : Nat} (hk : k ≠ 0) (h : s.source.answers = .stall :: later) :
    srcRead k s = (.noAnswer, s) := by simp [srcRead, hk, h]

theorem srcAvail_stall (h : s.source.answers = .stall :: later) : srcAvail s = (.noAnswer, s) := by
  simp [srcAvail, h]

/-- Streams that look alike ahead of the cursor give a read the same reply. -/
theorem srcRead_onStream (k : Nat) (h : s.SameAhead b) (x : Scratch) :
    ∃ r v, srcRead k s = (r, v) ∧ srcRead k (s.onStream b x) = (r, v.onStream b x) ∧
      b.length = v.source.bytes.length ∧ (r ≠ .err → v.SameAhead b) := by
  by_cases hk : k = 0
  · subst hk
    exact ⟨_, s, rfl, rfl, h.length_eq, fun _ => h⟩
  rcases answered_cases s.source.answers s.upcoming.length with
    ⟨later, ha⟩ | ⟨later, ha⟩ | ⟨given, later, ha⟩
  · exact ⟨_, s, srcRead_stall hk ha, srcRead_stall hk ha, h.length_eq, fun _ => h⟩
  · refine ⟨_, s.streamError, srcRead_err hk ha, ?_, h.length_eq, fun hr => absurd rfl hr⟩
    rw [srcRead_err (s := s.onStream b x) hk ha, State.onStream_streamError h.length_eq]
  · refine ⟨_, _, srcRead_answered hk ha, ?_, h.length_eq, fun _ => h.past _⟩
    rw [srcRead_answered hk (h.answered ha), State.onStream_upcoming h]
    rfl

theorem readFinish_mirrors (body : List Byte) (h : b.length = s.source.bytes.length)
    (hx : x.rftr = s.scratch.rftr) :
    Mirrors b (readFinish f body s) (readFinish f body (s.onStream b x)) := by
  unfold readFinish
  rw [State.onStream_scratch, hx]
  split
  · exact Ending.footerDrop.run_mirrors f x h
  · split
    · exact takeFault_mirrors _ h
    · exact (Ending.success body).run_mirrors f x h

theorem readFooter_mirrors (body : List Byte) (h : s.SameAhead b) (x : Scratch) :
    Mirrors b (readFooter f body s) (readFooter f body (s.onStream b x)) := by
  obtain ⟨r, v, hr, hr', hlen, -⟩ := srcRead_onStream Config.footerLen h x
  unfold readFooter
  rw [hr, hr']
  cases r with
  | noAnswer => exact (Ending.waits (.footer body)).run_mirrors f x hlen
  | err => exact Ending.streamError.run_mirrors f x hlen
  | answer a =>
    simp only
    split
    · exact takeFault_mirrors _ hlen
    · rename_i ftr _
      exact readFinish_mirrors (s := v.setRftr ftr) (x := { x with rftr := ftr }) body hlen rfl

/-- Of the header only the declared length enters. -/
theorem readPayload_mirrors (h : s.SameAhead b) (hx : headerLength x.rhdr = headerLength s.scratch.rhdr) :
    Mirrors b (readPayload f s) (readPayload f (s.onStream b x)) := by
  unfold readPayload
  rw [State.onStream_scratch, hx]
  split
  · exact takeFault_mirrors _ h.length_eq
  · rename_i plen _
    obtain ⟨r, v, hr, hr', hlen, hv⟩ := srcRead_onStream plen.toNat h x
    rw [hr, hr']
    cases r with
    | noAnswer => exact (Ending.waits .payload).run_mirrors f x hlen
    | err => exact Ending.streamError.run_mirrors f x hlen
    | answer a =>
      simp only
      split
      · exact takeFault_mirrors _ hlen
      · exact readFooter_mirrors a (hv (by simp)) x

theorem readSize_mirrors (h : s.SameAhead b) (hx : headerLength x.rhdr = headerLength s.scratch.rhdr) :
    Mirrors b (readSize f s) (readSize f (s.onStream b x)) := by
  unfold readSize
  rcases answered_cases s.source.answers s.upcoming.length with
    ⟨later, ha⟩ | ⟨later, ha⟩ | ⟨given, later, ha⟩
  · rw [srcAvail_stall ha, srcAvail_stall (s := s.onStream b x) ha]
    exact (Ending.waits .size).run_mirrors f x h.length_eq
  · rw [srcAvail_err ha, srcAvail_err (s := s.onStream b x) ha, State.onStream_streamError h.length_eq]
    exact Ending.streamError.run_mirrors f x h.length_eq
  · rw [srcAvail_answered ha, srcAvail_answered (h.answered ha)]
    simp only [State.setSource_scratch, State.onStream_scratch, hx]
    split
    · exact readPayload_mirrors (h.past 0) hx
    · exact Ending.sizeDrop.run_mirrors f x h.length_eq

/-- Two headers at the cursor that declare one length, and the same bytes after them. -/
theorem readHeader_mirrors {hdr hdr' : Bytes8} {rest : List Byte} (f : Option Byte)
    (hlen : b.length = s.source.bytes.length) (hs : s.upcoming = hdr.toList ++ rest)
    (hb : b.drop s.source.pos = hdr'.toList ++ rest) (hdeclared : headerLength hdr' = headerLength hdr) :
    Mirrors b (readHeader f s) (readHeader f (s.onStream b s.scratch)) := by
  have hs' : (s.onStream b s.scratch).upcoming = hdr'.toList ++ rest := hb
  rcases answered_cases s.source.answers s.upcoming.length with
    ⟨later, ha⟩ | ⟨later, ha⟩ | ⟨given, later, ha⟩
  · unfold readHeader
    rw [srcRead_stall (by decide) ha, srcRead_stall (s := s.onStream b s.scratch) (by decide) ha]
    exact (Ending.waits .header).run_mirrors f _ hlen
  · unfold readHeader
    rw [srcRead_err (by decide) ha, srcRead_err (s := s.onStream b s.scratch) (by decide) ha,
      State.onStream_streamError hlen]
    exact Ending.streamError.run_mirrors f _ hlen
  · have hleft : (s.onStream b s.scratch).upcoming.length = s.upcoming.length := by
      rw [hs, hs', List.length_append, List.length_append, Bytes8.toList_length, Bytes8.toList_length]
    have ha' : Answered (s.onStream b s.scratch).source.answers
        (s.onStream b s.scratch).upcoming.length given later := by rwa [hleft]
    rcases Nat.lt_or_ge given 8 with hshort | hlong
    · rw [readHeader_of_short ha hshort, readHeader_of_short ha' hshort]
      exact Ending.sizeDrop.run_mirrors f _ hlen
    · obtain ⟨e, hu⟩ := readHeader_of_headerArrives (f := f) ⟨hs, given, hlong, ha⟩
      obtain ⟨e', hu'⟩ := readHeader_of_headerArrives (f := f) ⟨hs', given, hlong, ha'⟩
      rw [e, e']
      exact readSize_mirrors (s := (s.past 8 later).setRhdr hdr) (x := { s.scratch with rhdr := hdr' })
        ⟨hlen, hu'.trans hu.symm⟩ hdeclared

end Sys2Proof.Machine
end

section
/-! The statements of 30_encoding.md: the command word, the command port, the packing of the ports, and the
reserved bytes of a frame. -/

namespace Sys2Proof.Machine

/-- Settles O8, by `decode_encode`. -/
theorem decodeOfEncodedCommand : Obligations.DecodeOfEncodedCommand := by
  intro i
  have h := decode_encode i
  exact ⟨h, by rw [decodeTableWord, ofNat_toNat_mod, h]⟩

/-- Settles O9: a word that decodes is put together from the fields of its command. -/
theorem encodeOfDecodedWord : Obligations.EncodeOfDecodedWord :=
  fun _ _ h => (decode_eq_ok_iff.1 h).symm

/-- Settles O6: a row without argument fixes the whole word, the others the low byte. -/
theorem wordSelectsRowByMask : Obligations.WordSelectsRowByMask := fun _ =>
  ⟨decode_eq_ok_iff_whole, decode_eq_ok_iff_whole, decode_eq_ok_iff_whole, decode_eq_ok_iff_whole,
    decode_eq_ok_iff_whole, decode_eq_ok_iff_whole, decode_eq_ok_iff_whole, decode_eq_ok_iff_whole,
    decode_eq_ok_iff_whole, decode_eq_readc_iff, decode_eq_cntrd_iff⟩

/-- Settles O7: the list by `legalWord_eq_false_iff`, the fault by what `takeFault` leaves in each field. -/
theorem illegalWordTakesFault : Obligations.IllegalWordTakesFault := by
  refine ⟨fun _ => legalWord_eq_false_iff, fun s r rest htr hp hw => ?_⟩
  have hstep : step s = .next (takeFault .illegalCmd (s.accept r rest)) :=
    (step_of_request htr hp).trans (runWord_of_not_legal (legalWord_eq_false_iff.2 hw) _)
  exact ⟨_, _, hstep, rfl, rfl, rfl, by simp [cond_eq_ite, FaultCause.code], rfl, rfl, rfl, rfl⟩

/-- Settles O39: the frame's header is `encodeHeader`; the two reads mirror each other, since the headers
declare one length. -/
theorem reservedBytesAreZeroAndIgnored : Obligations.ReservedBytesAreZeroAndIgnored := by
  constructor
  · intro s hs hpresent hlen
    have hp : ¬(s.ops.pPresent = false ∨ s.ops.p = []) := by
      simp [hpresent, List.ne_nil_of_length_pos hlen]
    exact ⟨_, _, (exec_encode hs).trans (congrArg _ (encodeFrame_of_payload hp)), rfl, rfl, rfl, rfl⟩
  · intro s s' filter hdr hdr' before rest hs hbytes hpos hhdr hs'
    obtain rfl : s' = s.onStream (before ++ hdr'.toList ++ rest) s.scratch := hs'
    have hdeclared : headerLength hdr' = headerLength hdr := by
      rw [hhdr]
      rfl
    have hupcoming : s.upcoming = hdr.toList ++ rest := by
      rw [State.upcoming, hbytes, hpos, List.append_assoc, List.drop_left]
    have hdrop : (before ++ hdr'.toList ++ rest).drop s.source.pos = hdr'.toList ++ rest := by
      rw [hpos, List.append_assoc, List.drop_left]
    obtain ⟨x, h⟩ := readHeader_mirrors filter (by simp [hbytes]) hupcoming hdrop hdeclared
    have hrun' := exec_readCommand (s := s.onStream (before ++ hdr'.toList ++ rest) s.scratch) filter hs
    rw [h] at hrun'
    exact ⟨_, _, exec_readCommand filter hs, hrun', rfl, rfl, rfl, rfl, rfl, rfl⟩

/-- Settles O2: the request is accepted and its word runs. -/
theorem stepRunsDecodedCommand : Obligations.StepRunsDecodedCommand :=
  fun _ _ _ _ htr hp hd => (step_of_request htr hp).trans (runWord_of_decode hd _)

/-- Settles O3: the placed word is the next request, with the operands and the stream that stand. -/
theorem placedWordRunsNext : Obligations.PlacedWordRunsNext := by
  intro s w i hd
  have hissue : s.withFetchWord 16 w.toNat = s.issue w := by
    rw [State.withFetchWord, ofNat_toNat_mod]
  rw [hissue, step_of_request (r := ⟨w, s.ops, none⟩) (rest := s.pending) rfl rfl]
  exact runWord_of_decode hd _

/-- Settles O4: there is no request to fetch. -/
theorem blockWaitsForCommand : Obligations.BlockWaitsForCommand := by
  intro s htr hp
  unfold step fetch
  rw [htr, hp]

/-- Settles O10, by evaluating the decoder on each word. -/
theorem listedWordsDecodeAsListed : Obligations.ListedWordsDecodeAsListed := by
  unfold Obligations.ListedWordsDecodeAsListed
  decide

/-- Settles O11, by the packed values as numbers and the unpacking of each. -/
theorem portPackingPutsByteZeroOnTop : Obligations.PortPackingPutsByteZeroOnTop :=
  ⟨fun b => by rw [b.pack_toNat]; omega, Bytes8.unpack_pack,
    fun f => by rw [f.pack_toNat]; omega, Bytes4.unpack_pack⟩

end Sys2Proof.Machine
end

section
/-! The header encoder by its bytes (40_encoder_units.md R70), and that the reader units undo the encoder's
(the inverse laws of 40_encoder_units.md). -/

namespace Sys2Proof.Machine

variable {s : State}

theorem encodeHeader_b0_toNat (n t : Nat) :
    (encodeHeader n t).b0.toNat = (12 + n) % 65536 / 256 := by
  rw [encodeHeader, extractByte_toNat, lengthField_toNat]
  omega

theorem encodeHeader_b1_toNat (n t : Nat) :
    (encodeHeader n t).b1.toNat = (12 + n) % 65536 % 256 := by
  rw [encodeHeader, extractByte_toNat, lengthField_toNat, Nat.pow_zero, Nat.div_one]

theorem encodeHeader_b5_toNat (n t : Nat) :
    (encodeHeader n t).b5.toNat = t % 16777216 / 65536 := by
  rw [encodeHeader, extractByte_toNat, timeField_toNat]
  omega

theorem encodeHeader_b6_toNat (n t : Nat) :
    (encodeHeader n t).b6.toNat = t % 16777216 / 256 % 256 := by
  rw [encodeHeader, extractByte_toNat, timeField_toNat]
  omega

theorem encodeHeader_b7_toNat (n t : Nat) :
    (encodeHeader n t).b7.toNat = t % 16777216 % 256 := by
  rw [encodeHeader, extractByte_toNat, timeField_toNat, Nat.pow_zero, Nat.div_one]

theorem headerLength_encodeHeader (n t : Nat) : headerLength (encodeHeader n t) = lengthField n := by
  rw [← BitVec.toNat_inj, headerLength_toNat, encodeHeader_b0_toNat, encodeHeader_b1_toNat,
    lengthField_toNat, Nat.div_add_mod']

theorem headerTime_encodeHeader (n t : Nat) : headerTime (encodeHeader n t) = timeField t := by
  rw [← BitVec.toNat_inj, headerTime_toNat, encodeHeader_b5_toNat, encodeHeader_b6_toNat,
    encodeHeader_b7_toNat, timeField_toNat]
  omega

/-- No wrap: the length field of a payload of at most 65523 bytes gives the payload's length back. -/
theorem payloadLength_lengthField {n : Nat} (h : n ≤ 65523) :
    payloadLength (lengthField n) = some (BitVec.ofNat 16 n) := by
  have hfield : (lengthField n).toNat = 12 + n := by
    rw [lengthField_toNat]
    omega
  rw [payloadLength_of_le (by omega), hfield, Nat.add_sub_cancel_left]

theorem footerMatches_generateFooter : footerMatches generateFooter = true :=
  (footerMatches_iff _).2 rfl

/-- `PLEN` where there is a payload length: `under` is 0 and no free value is drawn. -/
theorem exec_plen_of_some {plen : BitVec 16} (hs : s.fault = false)
    (h : payloadLength s.ops.flen = some plen) :
    exec .plen s = .next (s.respondSome (.length false plen)) := by
  rw [exec_plen hs, respondLength, lengthUnder, h]
  rfl

end Sys2Proof.Machine
end

section
/-! The statements of 40_encoder_units.md: the header encoder, the footer generator, and their inverses in the
reader units. -/

namespace Sys2Proof.Machine

/-- Settles O12, by the bytes of `encodeHeader` as numbers. -/
theorem hdrencAssemblesHeader : Obligations.HdrencAssemblesHeader :=
  ⟨by decide, fun _ hs => ⟨_, exec_hdrenc hs, encodeHeader_b0_toNat _ _, encodeHeader_b1_toNat _ _,
    rfl, rfl, rfl, encodeHeader_b5_toNat _ _, encodeHeader_b6_toNat _ _, encodeHeader_b7_toNat _ _⟩⟩

/-- Settles O13: `generateFooter` is the signature. -/
theorem ftrgenGivesSignature : Obligations.FtrgenGivesSignature :=
  ⟨by decide, fun _ hs => exec_ftrgen hs⟩

/-- Settles O20: the fields of the header are `lengthField` and `timeField`, and `PLEN` undoes the first. -/
theorem headerUnitsAreInverse : Obligations.HeaderUnitsAreInverse := by
  refine fun s hs => ⟨⟨_, _, exec_hdrenc hs, rfl, fun s' hs' hh => ?_⟩,
    ⟨_, _, exec_ftrgen hs, rfl, fun s' hs' hf => ?_⟩⟩
  · have hdec : exec .hdrdec s' =
        .next (s'.respondSome (.fields (lengthField s.ops.n) (timeField s.ops.t))) := by
      rw [exec_hdrdec hs', hh, headerLength_encodeHeader, headerTime_encodeHeader]
    refine ⟨_, _, _, hdec, rfl, lengthField_toNat _, timeField_toNat _, fun hn s'' hs'' hlen => ?_⟩
    have hplen : payloadLength s''.ops.flen = some (BitVec.ofNat 16 s.ops.n) := by
      rw [hlen, payloadLength_lengthField hn]
    exact ⟨_, _, exec_plen_of_some hs'' hplen, rfl, Nat.mod_eq_of_lt (by omega)⟩
  · have hchk : exec .ftrchk s' = .next (s'.respondSome (.footerValid true)) := by
      rw [exec_ftrchk hs', hf, footerMatches_generateFooter]
    exact ⟨_, hchk, rfl⟩

end Sys2Proof.Machine
end

section
/-! The flags of the reader units as propositions (41_reader_units.md R81, R83, R84), `PLEN` on both sides of
the overhead (R82), and what any reader unit answers from two states with the same operands (R85). -/

namespace Sys2Proof.Machine

variable {s s' : State}

theorem sizeFits_iff (flen : BitVec 16) (avail : Nat) :
    sizeFits flen avail = true ↔ flen.toNat ≤ avail :=
  decide_eq_true_iff

theorem footerMatches_iff_bytes (f : Bytes4) :
    footerMatches f = true ↔ f.b0 = 0xA5 ∧ f.b1 = 0xA5 ∧ f.b2 = 0xA5 ∧ f.b3 = 0xA5 :=
  (footerMatches_iff f).trans (Bytes4.mk.injEq ..).to_iff

theorem categoryEq_iff (p0 cat : Byte) : categoryEq p0 cat = true ↔ p0 = cat :=
  beq_iff_eq

/-- `PLEN` of a length that covers the overhead answers the difference. -/
theorem exec_plen_of_le (hs : s.fault = false) (h : 12 ≤ s.ops.flen.toNat) :
    ∃ plen : BitVec 16, exec .plen s = .next (s.respondSome (.length false plen)) ∧
      plen.toNat = s.ops.flen.toNat - 12 := by
  have hplen := payloadLength_of_le h
  exact ⟨_, exec_plen_of_some hs hplen, Nat.eq_sub_of_add_eq (payloadLength_some hplen)⟩

/-- `PLEN` of a length below the overhead: `under` is 1, and `plen` is the free value it draws. -/
theorem exec_plen_of_lt (hs : s.fault = false) (h : s.ops.flen.toNat < 12) :
    exec .plen s =
      .next (s.nextTick.respondSome (.length true (Config.freePlen s.tick s.ops.flen))) := by
  rw [exec_plen hs, respondLength, lengthUnder, payloadLength_of_lt h]
  rfl

/-- A reader unit answers what its operands decide, from the state as it is; only `PLEN` of a length below
the overhead draws a free value instead. -/
theorem exec_reader_unit_cases {i : Instr} (hi : i ∈ [Instr.hdrdec, .szchk, .plen, .ftrchk, .catchk])
    (hs : s.fault = false) (hs' : s'.fault = false) (ho : s'.ops = s.ops) :
    (∃ d, exec i s = .next (s.respondSome d) ∧ exec i s' = .next (s'.respondSome d)) ∨
    ((i = .plen ∧ s.ops.flen.toNat < 12) ∧ ∃ d d', exec i s = .next (s.nextTick.respondSome d) ∧
      exec i s' = .next (s'.nextTick.respondSome d')) := by
  simp only [List.mem_cons, List.not_mem_nil, or_false] at hi
  rcases hi with rfl | rfl | rfl | rfl | rfl
  · exact .inl ⟨_, exec_hdrdec hs, ho ▸ exec_hdrdec hs'⟩
  · exact .inl ⟨_, exec_szchk hs, ho ▸ exec_szchk hs'⟩
  · by_cases hlt : s.ops.flen.toNat < 12
    · exact .inr ⟨⟨rfl, hlt⟩, _, _, exec_plen_of_lt hs hlt, exec_plen_of_lt hs' (ho ▸ hlt)⟩
    · have hplen := payloadLength_of_le (Nat.le_of_not_lt hlt)
      exact .inl ⟨_, exec_plen_of_some hs hplen, exec_plen_of_some hs' (ho ▸ hplen)⟩
  · exact .inl ⟨_, exec_ftrchk hs, ho ▸ exec_ftrchk hs'⟩
  · exact .inl ⟨_, exec_catchk hs, ho ▸ exec_catchk hs'⟩

end Sys2Proof.Machine
end

section
/-! The statements of 41_reader_units.md: the five reader units and that they are pure. -/

namespace Sys2Proof.Machine

/-- Settles O14, by the two fields of a header as numbers. -/
theorem hdrdecExtractsFields : Obligations.HdrdecExtractsFields :=
  ⟨by decide, fun _ hs => ⟨_, _, exec_hdrdec hs, headerLength_toNat _, headerTime_toNat _⟩⟩

/-- Settles O15: `sizeFits` is the unsigned comparison. -/
theorem szchkComparesUnsigned : Obligations.SzchkComparesUnsigned :=
  ⟨by decide, fun _ hs => ⟨_, exec_szchk hs, sizeFits_iff _ _⟩⟩

/-- Settles O16, by `PLEN` on the two sides of the overhead. -/
theorem plenSubtractsOverhead : Obligations.PlenSubtractsOverhead :=
  ⟨by decide, fun _ hs => ⟨exec_plen_of_le hs, fun h => ⟨_, exec_plen_of_lt hs h⟩⟩⟩

/-- Settles O17: `footerMatches` is the conjunction of the four byte comparisons. -/
theorem ftrchkChecksEachByte : Obligations.FtrchkChecksEachByte :=
  ⟨by decide, fun _ hs => ⟨_, exec_ftrchk hs, footerMatches_iff_bytes _⟩⟩

/-- Settles O18: `categoryEq` is equality of the two patterns. -/
theorem catchkComparesPatterns : Obligations.CatchkComparesPatterns :=
  ⟨by decide, fun _ hs => ⟨_, exec_catchk hs, categoryEq_iff _ _⟩⟩

/-- Settles O19: the two things a reader unit can answer leave all but the ports and the free-value number as
they were, and the responses differ in the excluded corner alone. -/
theorem readerUnitsArePure : Obligations.ReaderUnitsArePure := by
  intro i s s' hi hs hs' ho
  rcases exec_reader_unit_cases hi hs hs' ho with ⟨d, e, e'⟩ | ⟨hunder, d, d', e, e'⟩
  · exact ⟨_, _, _, _, e, e', rfl, rfl, rfl, rfl, fun _ => rfl, by simp⟩
  · exact ⟨_, _, _, _, e, e', rfl, rfl, rfl, rfl, fun h => absurd hunder h, by simp⟩

end Sys2Proof.Machine
end

section
/-! Counters that have room go up by one for each `inc` (10_state.md R15, R16); and how a read of
42_frame_operations.md R91, R92 ends where its counters have room or where no fault is taken. -/

namespace Sys2Proof.Machine

/-- The counters after one `inc` for each name in `xs`, where none of them is full. -/
def Counters.plus (c : Counters) (xs : List CounterName) : Counters where
  framesRead := c.framesRead + xs.count .framesRead
  framesDropped := c.framesDropped + xs.count .framesDropped
  droppedForInvalidSize := c.droppedForInvalidSize + xs.count .droppedForInvalidSize
  droppedForInvalidFooter := c.droppedForInvalidFooter + xs.count .droppedForInvalidFooter

theorem Counters.plus_get (c : Counters) (xs : List CounterName) (x : CounterName) :
    (c.plus xs).get x = c.get x + xs.count x := by
  cases x <;> rfl

/-- `inc`s that overflow nothing come to `plus`. -/
theorem Counters.eq_plus_of_incAll {cw : Nat} {c c' : Counters} {xs : List CounterName}
    (h : c.incAll cw xs = some c') : c' = c.plus xs :=
  Counters.ext_get fun y => by rw [Counters.incAll_get h y, Counters.plus_get]

/-- `inc`s on different counters, none of them full, overflow nothing. -/
theorem Counters.incAll_of_room {cw : Nat} {xs : List CounterName} :
    ∀ {c : Counters}, xs.Nodup → (∀ x ∈ xs, c.get x ≠ 2 ^ cw - 1) → c.incAll cw xs = some (c.plus xs) := by
  induction xs with
  | nil => intro c _ _; rfl
  | cons x xs ih =>
    intro c hnd hroom
    obtain ⟨hx, hnd'⟩ := List.nodup_cons.1 hnd
    have hinc : c.inc cw x = some (c.set (c.get x + 1) x) := if_neg (hroom x List.mem_cons_self)
    have hroom' : ∀ y ∈ xs, (c.set (c.get x + 1) x).get y ≠ 2 ^ cw - 1 := fun y hy => by
      have hyx : y ≠ x := fun e => hx (e ▸ hy)
      rw [Counters.get_set, if_neg hyx]
      exact hroom y (List.mem_cons_of_mem _ hy)
    have hall : c.incAll cw (x :: xs) = some ((c.set (c.get x + 1) x).plus xs) := by
      rw [Counters.incAll, hinc]
      exact ih hnd' hroom'
    rw [hall, Counters.eq_plus_of_incAll hall]

variable {s v : State} {f : Option Byte} {body : List Byte}

theorem count_of_room {xs : List CounterName} (k : State → State) (hnd : xs.Nodup)
    (hroom : ∀ x ∈ xs, s.counters.get x ≠ 2 ^ s.cw - 1) :
    count xs s k = k (s.setCounters (s.counters.plus xs)) := by
  simp only [count, Counters.incAll_of_room hnd hroom]

theorem dropSize_of_room (hd : s.counters.framesDropped ≠ 2 ^ s.cw - 1)
    (hz : s.counters.droppedForInvalidSize ≠ 2 ^ s.cw - 1) :
    dropSize s =
      (s.setCounters (s.counters.plus [.framesDropped, .droppedForInvalidSize])).respondNone .dropSize :=
  count_of_room _ (by decide) (List.forall_mem_cons.2 ⟨hd, List.forall_mem_singleton.2 hz⟩)

theorem dropFooter_of_room (hd : s.counters.framesDropped ≠ 2 ^ s.cw - 1)
    (hf : s.counters.droppedForInvalidFooter ≠ 2 ^ s.cw - 1) :
    dropFooter s =
      (s.setCounters (s.counters.plus [.framesDropped, .droppedForInvalidFooter])).respondNone .dropFooter :=
  count_of_room _ (by decide) (List.forall_mem_cons.2 ⟨hd, List.forall_mem_singleton.2 hf⟩)

/-- The response of a read of a sound frame: its payload, or none where the filter stops it. -/
def filterResponse (f : Option Byte) (body : List Byte) : Response :=
  if passesFilter f body then ⟨true, 0, .payload body⟩ else ⟨false, 5, .absent⟩

/-- `readFinish` delivers that response. -/
theorem respond_filterResponse (f : Option Byte) (body : List Byte) (s : State) :
    (if passesFilter f body then s.respondSome (.payload body) else s.respondNone .filtered) =
      s.respond (filterResponse f body) := by
  unfold filterResponse
  split <;> rfl

theorem filterResponse_none (body : List Byte) : filterResponse none body = ⟨true, 0, .payload body⟩ := rfl

theorem filterResponse_cons (cat p0 : Byte) (tail : List Byte) :
    filterResponse (some cat) (p0 :: tail) =
      if p0 = cat then ⟨true, 0, .payload (p0 :: tail)⟩ else ⟨false, 5, .absent⟩ :=
  if_congr (categoryEq_iff p0 cat) rfl rfl

/-- It carries cause `OK` or `FILTERED`. -/
theorem filterResponse_cause (f : Option Byte) (body : List Byte) :
    (filterResponse f body).cause = 0 ∨ (filterResponse f body).cause = 5 := by
  unfold filterResponse
  split
  · exact .inl rfl
  · exact .inr rfl

/-- A sound frame is counted as read, whether or not the filter lets its payload through. -/
theorem readFinish_of_sound (h : s.scratch.rftr = ⟨0xA5, 0xA5, 0xA5, 0xA5⟩) (hb : f = none ∨ body ≠ [])
    (hroom : s.counters.framesRead ≠ 2 ^ s.cw - 1) :
    readFinish f body s =
      (s.setCounters (s.counters.plus [.framesRead])).respond (filterResponse f body) := by
  have hf := (footerMatches_iff _).2 h
  rcases readFinish_cases f body s with ⟨hbad, -⟩ | ⟨-, hsome, hnil, -⟩ | ⟨-, -, e⟩
  · rw [hf] at hbad
    cases hbad
  · rcases hb with rfl | hne
    · cases hsome
    · exact absurd hnil hne
  · simp only [respond_filterResponse] at e
    exact e.trans (count_of_room _ (by decide) (List.forall_mem_singleton.2 hroom))

/-- A sound frame without a payload has no category. -/
theorem readFinish_of_empty_category {cat : Byte} (h : s.scratch.rftr = ⟨0xA5, 0xA5, 0xA5, 0xA5⟩) :
    readFinish (some cat) [] s = takeFault .emptyCategory s := by
  have hf := (footerMatches_iff _).2 h
  rcases readFinish_cases (some cat) [] s with ⟨hbad, -⟩ | ⟨-, -, -, e⟩ | ⟨-, hne, -⟩
  · rw [hf] at hbad
    cases hbad
  · exact e
  · exact absurd ⟨rfl, rfl⟩ hne

/-- A declared length that fails the size check. -/
theorem readHeader_of_oversize {hdr : Bytes8} {rest : List Byte} {avail : Nat} {later : List Answer}
    (h : s.SizeKnown hdr rest avail later) (hover : 8 + avail < declared hdr) :
    readHeader f s = dropSize ((s.past 8 later).setRhdr hdr) := by
  rw [(readHeader_of_sizeKnown h).1, if_neg (Nat.not_le.2 hover)]

theorem dropSize_of_clear (h : (dropSize s).fault = false) :
    ∃ c, dropSize s = (s.setCounters c).respondNone .dropSize :=
  count_of_clear h

/-- Once the footer is read, a read that takes no fault responds, having moved counters at most. -/
theorem readFinish_of_clear (h : (readFinish f body s).fault = false) :
    ∃ c r, readFinish f body s = (s.setCounters c).respond r ∧
      (r.cause = 0 ∨ r.cause = 5 ∨ r.cause = 3) := by
  rcases readFinish_cases f body s with ⟨-, e⟩ | ⟨-, -, -, e⟩ | ⟨-, -, e⟩
  · rw [e] at h ⊢
    obtain ⟨c, e⟩ := count_of_clear h
    exact ⟨c, _, e, .inr (.inr rfl)⟩
  · rw [e, takeFault_fault] at h
    cases h
  · simp only [respond_filterResponse] at e
    rw [e] at h ⊢
    obtain ⟨c, e⟩ := count_of_clear h
    exact ⟨c, _, e, (filterResponse_cause f body).imp_right .inl⟩

theorem State.SizeKnown.upcoming_eq {hdr : Bytes8} {rest : List Byte} {avail : Nat} {later : List Answer}
    (h : s.SizeKnown hdr rest avail later) : s.upcoming = hdr.toList ++ rest := by
  obtain ⟨_, ⟨hu, -⟩, -⟩ := h
  exact hu

/-- A read that comes to a fault from a state with `FAULT` = 0 records it and answers with it. -/
theorem exec_readCommand_of_fault {c : FaultCause} (hs : s.fault = false)
    (h : readHeader f s = takeFault c v) (hv : v.fault = false) :
    ∃ (t : State) (a : Response), exec (readCommand f) s = .next t ∧
      t.fault = true ∧ t.fcause = c.code ∧ t.response = some a ∧ a.cause = c.code :=
  ⟨_, _, (exec_readCommand f hs).trans (congrArg _ h), rfl, by simp [hv], rfl, rfl⟩

end Sys2Proof.Machine
end

section
/-! The outcome table of 42_frame_operations.md R94: the response of a read that ends without a fault and the
counters it moves. -/

namespace Sys2Proof.Machine

/-- The rows of R94: a response and the counters that go up with it. -/
inductive OutcomeRow (f : Option Byte) : Response → List CounterName → Prop
  | payload (body : List Byte) (h : ∀ cat, f = some cat → body.head? = some cat) :
      OutcomeRow f ⟨true, 0, .payload body⟩ [.framesRead]
  | filtered (h : f ≠ none) : OutcomeRow f ⟨false, 5, .absent⟩ [.framesRead]
  | sizeDrop : OutcomeRow f ⟨false, 2, .absent⟩ [.framesDropped, .droppedForInvalidSize]
  | footerDrop : OutcomeRow f ⟨false, 3, .absent⟩ [.framesDropped, .droppedForInvalidFooter]
  | streamError :
      OutcomeRow f ⟨false, 4, .absent⟩ (if Config.ioErrIncDropped then [.framesDropped] else [])

/-- If `t` is the end of a read without a fault, then by a row of R94 counted from `c`. -/
def State.EndsByRow (f : Option Byte) (c : Counters) (t : State) : Prop :=
  t.fault = false → t.transfer = none →
    ∃ r xs, OutcomeRow f r xs ∧ t.response = some r ∧ t.counters = c.plus xs

variable {u : State} {f : Option Byte} {body : List Byte}

theorem count_endsByRow {xs : List CounterName} {r : Response} (h : OutcomeRow f r xs) :
    (count xs u (·.respond r)).EndsByRow f u.counters := by
  intro ht _
  rcases count_cases xs u (·.respond r) with ⟨-, e⟩ | ⟨c, hc, e⟩
  · rw [e, takeFault_fault] at ht
    cases ht
  · rw [e]
    exact ⟨r, xs, h, rfl, Counters.eq_plus_of_incAll hc⟩

/-- A payload the filter lets through begins with the category, and only a filter stops one. -/
theorem outcomeRow_filterResponse (h : ¬(f.isSome = true ∧ body = [])) :
    OutcomeRow f (filterResponse f body) [.framesRead] := by
  cases f with
  | none => exact .payload body fun _ e => by cases e
  | some cat =>
    cases body with
    | nil => exact absurd ⟨rfl, rfl⟩ h
    | cons p0 tail =>
      rw [filterResponse_cons]
      split
      · next hcat => exact .payload _ fun cat' e => by cases e; exact congrArg some hcat
      · exact .filtered (Option.some_ne_none cat)

theorem readClosed_endsByRow (f : Option Byte) (c : Counters) :
    ReadClosed f (fun _ _ => True) (fun u => u.counters = c) (State.EndsByRow f c) where
  fits _ _ _ := trivial
  consume _ _ hu := hu
  asked _ hu := hu
  rhdr _ _ hu := hu
  rftr _ _ hu := hu
  dropSize _ hu := hu ▸ count_endsByRow .sizeDrop
  dropFooter _ hu := hu ▸ count_endsByRow .footerDrop
  ioError u hu := hu ▸ count_endsByRow (u := u.streamError) .streamError
  takeFault _ _ _ _ ht := by simp at ht
  await _ _ _ _ _ _ htr := by simp at htr
  finish u body hu hb := by
    simp only [respond_filterResponse, ← hu]
    exact count_endsByRow (outcomeRow_filterResponse hb)

end Sys2Proof.Machine
end

section
/-! The frame `ENCODE` builds, by its bytes (42_frame_operations.md R90, R95). -/

namespace Sys2Proof.Machine

variable {s : State}

theorem exec_encode_of_payload (hs : s.fault = false) (hp : s.ops.pPresent = true)
    (hlen : 1 ≤ s.ops.p.length) :
    exec .encode s =
      .next (((s.setEhdr (encodeHeader s.ops.p.length s.ops.now)).setEftr generateFooter).respondSome
        (.frame (buildFrame (encodeHeader s.ops.p.length s.ops.now) s.ops.p generateFooter))) := by
  rw [exec_encode hs, encodeFrame_of_payload (by simp [hp, List.ne_nil_of_length_pos hlen])]

theorem buildFrame_length (hdr : Bytes8) (p : List Byte) (ftr : Bytes4) :
    (buildFrame hdr p ftr).length = 12 + p.length := by
  simp only [buildFrame, List.length_append, Bytes8.toList_length, Bytes4.toList_length]
  omega

theorem buildFrame_drop_header (hdr : Bytes8) (p : List Byte) (ftr : Bytes4) :
    (buildFrame hdr p ftr).drop 8 = p ++ ftr.toList := rfl

theorem buildFrame_drop_payload (hdr : Bytes8) (p : List Byte) (ftr : Bytes4) :
    (buildFrame hdr p ftr).drop (8 + p.length) = ftr.toList := by
  rw [← List.drop_drop, buildFrame_drop_header, List.drop_left]

theorem buildFrame_left_inj {hdr hdr' : Bytes8} {p : List Byte} {ftr : Bytes4} :
    buildFrame hdr' p ftr = buildFrame hdr p ftr ↔ hdr' = hdr := by
  refine ⟨fun h => ?_, fun h => h ▸ rfl⟩
  have hlist : hdr'.toList = hdr.toList := congrArg (List.take 8) h
  exact Option.some.inj (congrArg Bytes8.ofList? hlist)

/-- Outside bytes 5 to 7 the time does not enter a frame. -/
theorem buildFrame_getElem?_of_time (n t t' : Nat) (p : List Byte) (ftr : Bytes4) :
    ∀ k, k ≠ 5 → k ≠ 6 → k ≠ 7 →
      (buildFrame (encodeHeader n t') p ftr)[k]? = (buildFrame (encodeHeader n t) p ftr)[k]?
  | 0, _, _, _ | 1, _, _, _ | 2, _, _, _ | 3, _, _, _ | 4, _, _, _ => rfl
  | 5, h, _, _ => absurd rfl h
  | 6, _, h, _ => absurd rfl h
  | 7, _, _, h => absurd rfl h
  | _ + 8, _, _, _ => rfl

theorem encodeHeader_time_inj {n t t' : Nat} :
    encodeHeader n t' = encodeHeader n t ↔ t' % 16777216 = t % 16777216 := by
  rw [← timeField_toNat t', ← timeField_toNat t, BitVec.toNat_inj]
  constructor
  · intro h
    rw [← headerTime_encodeHeader n t', h, headerTime_encodeHeader]
  · intro h
    simp only [encodeHeader, h]

/-- The length field of a frame holds its length where that is less than 2^16. -/
theorem declared_encodeHeader {n t : Nat} (h : n ≤ 65523) : declared (encodeHeader n t) = 12 + n := by
  rw [declared, ← headerLength_toNat, headerLength_encodeHeader, lengthField_toNat]
  omega

/-- A plain source that is exactly a frame of `ENCODE` gives it to a read. -/
theorem frameArrives_of_encoded {p : List Byte} {now : Nat} {ftr : Bytes4} (h : p.length ≤ 65523)
    (hsrc : s.source = ⟨buildFrame (encodeHeader p.length now) p ftr, 0, []⟩) :
    s.FrameArrives (encodeHeader p.length now) p ftr [] [] := by
  have hplain : s.PlainSource := by
    rw [State.PlainSource, hsrc]
    exact ⟨rfl, Nat.zero_le _⟩
  refine hplain.frameArrives ?_ (declared_encodeHeader h)
  rw [State.upcoming, hsrc, List.append_nil, ← List.append_assoc]
  rfl

end Sys2Proof.Machine
end

section
/-! The statements of 42_frame_operations.md: `ENCODE`, `READ` and `READC`, their outcomes, and the round
trip. -/

namespace Sys2Proof.Machine

/-- Settles O25: the frame arrives, is sound, and no filter stops its payload. -/
theorem readReturnsSoundFrame : Obligations.ReadReturnsSoundFrame := by
  intro s hdr body rest later hs harr hroom
  have hread := (readHeader_of_frameArrives harr).trans (readFinish_of_sound rfl (.inl rfl) hroom)
  rw [filterResponse_none] at hread
  exact (exec_readCommand none hs).trans (congrArg _ hread)

/-- Settles O40: the reader's source gives the whole frame, its length field being the frame's length, so
`READ` returns the payload by O25. -/
theorem roundTripReturnsPayload : Obligations.RoundTripReturnsPayload := by
  intro e he hp hlen hmax
  refine ⟨_, _, exec_encode_of_payload he hp hlen, rfl, buildFrame_length _ _ _, fun r hr hsrc hroom => ?_⟩
  have harr := frameArrives_of_encoded hmax hsrc
  refine ⟨_, readReturnsSoundFrame r _ _ _ _ hr harr hroom, rfl, rfl, ?_⟩
  rw [buildFrame_length]
  simp [hsrc]

/-- Settles O22, by the parts of `buildFrame` and the header's bytes as numbers. -/
theorem encodedFrameHasItsLayout : Obligations.EncodedFrameHasItsLayout := by
  intro s hs hp hlen
  refine ⟨_, _, exec_encode_of_payload hs hp hlen, rfl, buildFrame_length _ _ _, rfl, rfl, rfl, ?_,
    buildFrame_drop_payload _ _ _, ⟨_, _, rfl, rfl, ?_⟩, ⟨_, _, _, rfl, rfl, rfl, ?_⟩⟩
  · rw [buildFrame_drop_header, List.take_left]
  · rw [← headerLength_toNat, headerLength_encodeHeader, lengthField_toNat]
  · rw [← headerTime_toNat, headerTime_encodeHeader, timeField_toNat]

/-- Settles O23: the frames share payload and footer, and their headers differ by the time field. -/
theorem framesDifferOnlyInTime : Obligations.FramesDifferOnlyInTime := by
  intro s s' hs hs' hp hp' hlen hsame
  have hencode' := exec_encode_of_payload hs' hp' (hsame ▸ hlen)
  rw [hsame] at hencode'
  exact ⟨_, _, _, _, exec_encode_of_payload hs hp hlen, hencode', rfl, rfl,
    buildFrame_getElem?_of_time _ _ _ _ _, buildFrame_left_inj.trans encodeHeader_time_inj⟩

/-- Settles O26: the frame arrives and is sound; its first byte decides the filter. -/
theorem readcFiltersByCategory : Obligations.ReadcFiltersByCategory := by
  intro s cat hdr p0 tail rest later hs harr hroom
  have hlen : 12 + (p0 :: tail).length = 13 + tail.length := by
    rw [List.length_cons]
    omega
  have hread := (readHeader_of_frameArrives harr).trans
    (readFinish_of_sound (f := some cat) rfl (.inr (List.cons_ne_nil p0 tail)) hroom)
  rw [filterResponse_cons, hlen] at hread
  exact (exec_readCommand (some cat) hs).trans (congrArg _ hread)

/-- Settles O27: `READ` by O25; under a filter there is no byte to compare. -/
theorem declaredTwelveIsEmptyPayload : Obligations.DeclaredTwelveIsEmptyPayload := by
  intro s hdr rest later hs harr
  refine ⟨fun hroom => ⟨_, readReturnsSoundFrame s hdr [] rest later hs harr hroom, rfl, rfl, rfl⟩,
    fun cat => ?_⟩
  exact exec_readCommand_of_fault hs
    ((readHeader_of_frameArrives harr).trans (readFinish_of_empty_category rfl)) hs

/-- Settles O28: the short header is the size drop of R91 step 1. -/
theorem shortHeaderIsSizeDrop : Obligations.ShortHeaderIsSizeDrop := by
  intro s filter given later hs hans hgiven hdrop hsize
  have hread := (readHeader_of_short (f := filter) hans hgiven).trans (dropSize_of_room hdrop hsize)
  exact (exec_readCommand filter hs).trans (congrArg _ hread)

/-- Settles O29: the size check fails, which is the size drop of R91 step 3. -/
theorem oversizeLengthIsSizeDrop : Obligations.OversizeLengthIsSizeDrop := by
  intro s filter hdr rest avail later hs hsize hover hdrop hinvalid
  have hread := (readHeader_of_oversize (f := filter) hsize hover).trans (dropSize_of_room hdrop hinvalid)
  exact (exec_readCommand filter hs).trans (congrArg _ hread)

/-- Settles O30: the frame arrives, and its footer is not the signature. -/
theorem badFooterIsFooterDrop : Obligations.BadFooterIsFooterDrop := by
  intro s filter hdr body ftr rest later hs harr hbad hdrop hfooter
  have hftr : ftr ≠ ⟨0xA5, 0xA5, 0xA5, 0xA5⟩ := by
    rintro rfl
    exact hbad ⟨rfl, rfl, rfl, rfl⟩
  have hread := (readHeader_of_frameArrives (f := filter) harr).trans
    ((readFinish_of_bad_footer hftr).trans (dropFooter_of_room hdrop hfooter))
  exact (exec_readCommand filter hs).trans (congrArg _ hread)

/-- Settles O31: the read comes to `LEN_UNDERFLOW` with `FAULT` still 0. -/
theorem shortDeclaredLengthFaults : Obligations.ShortDeclaredLengthFaults :=
  fun _ _ _ _ _ _ hs hsize hlt hle => exec_readCommand_of_fault hs (readHeader_of_underflow hsize hlt hle) hs

/-- Settles O36: every read ends by a row of the table, whatever the source answers (`ReadClosed`). -/
theorem outcomeDecidesCounters : Obligations.OutcomeDecidesCounters := by
  intro s t filter h hs ht htr
  rw [exec_readCommand filter hs] at h
  cases h
  obtain ⟨r, xs, hrow, hresp, hcnt⟩ := (readClosed_endsByRow filter s.counters).readHeader rfl ht htr
  cases hrow with
  | payload body hcat => exact .inl ⟨body, hresp, hcat, hcnt⟩
  | filtered hf => exact .inr (.inl ⟨hf, hresp, hcnt⟩)
  | sizeDrop => exact .inr (.inr (.inl ⟨hresp, hcnt⟩))
  | footerDrop => exact .inr (.inr (.inr (.inl ⟨hresp, hcnt⟩)))
  | streamError =>
    refine .inr (.inr (.inr (.inr ⟨hresp, hcnt.trans ?_⟩)))
    split <;> rfl

/-- Settles O37, by how far the plain source carries a read. -/
theorem outcomeDecidesCursor : Obligations.OutcomeDecidesCursor := by
  intro s t filter a h hs ht hp hresp
  rw [exec_readCommand filter hs] at h
  cases h
  rcases hp.arrival_cases with
    hshort | ⟨hdr, rest, hk, hover | ⟨hunder, hfits⟩ | ⟨body, ftr, rest', harr⟩⟩
  · rw [readHeader_of_short hp.answered hshort] at ht hresp ⊢
    obtain ⟨c, e⟩ := dropSize_of_clear ht
    rw [e] at hresp ⊢
    cases hresp
    exact ⟨rfl, .inl ⟨rfl, hshort, rfl⟩⟩
  · rw [readHeader_of_oversize hk hover] at ht hresp ⊢
    obtain ⟨c, e⟩ := dropSize_of_clear ht
    rw [e] at hresp ⊢
    cases hresp
    exact ⟨rfl, .inr ⟨hdr, rest, hk.upcoming_eq, .inl ⟨rfl, hover, rfl⟩⟩⟩
  · rw [readHeader_of_underflow hk hunder hfits, takeFault_fault] at ht
    cases ht
  · have hdeclared : declared hdr = 12 + body.length := harr.1
    rw [readHeader_of_frameArrives harr] at ht hresp ⊢
    obtain ⟨c, r, e, hcause⟩ := readFinish_of_clear ht
    rw [e] at hresp ⊢
    cases hresp
    exact ⟨rfl, .inr ⟨hdr, rest, hk.upcoming_eq, .inr ⟨hcause, congrArg (s.source.pos + ·) hdeclared.symm⟩⟩⟩

/-- Settles O21: the two exits of `encodeFrame`. -/
theorem encodeWrapsPayload : Obligations.EncodeWrapsPayload := by
  refine ⟨by decide, fun _ hs => exec_hdrenc hs, fun s hs => ⟨fun hempty => ?_, fun hp hlen => ?_⟩⟩
  · rw [List.length_eq_zero_iff] at hempty
    exact (exec_encode hs).trans (congrArg _ (encodeFrame_of_empty hempty))
  · exact exec_encode_of_payload hs hp hlen

end Sys2Proof.Machine
end

section
/-! The statement of 43_counter_access.md for a block without a fault: `CNTRD` by register number (R17, R100). -/

namespace Sys2Proof.Machine

/-- The word of `CNTRD idx` as a number (30_encoding.md R58). -/
theorem encode_cntrd_toNat (idx : BitVec 3) :
    (encode (.cntrd idx)).toNat = idx.toNat * 256 + 0x000B := by
  rw [encode_toNat, argument_cntrd_toNat]
  rfl

/-- Settles O44, by what `CNTRD` does for a counter, the status word, and a reserved number. -/
theorem cntrdReadsRegister : Obligations.CntrdReadsRegister := by
  refine ⟨fun idx => ?_, fun s hs => ⟨exec_cntrd_of_counter (x := .framesRead) hs rfl,
    exec_cntrd_of_counter (x := .framesDropped) hs rfl,
    exec_cntrd_of_counter (x := .droppedForInvalidSize) hs rfl,
    exec_cntrd_of_counter (x := .droppedForInvalidFooter) hs rfl, ?_, fun idx hidx => ?_⟩⟩
  · rw [decode_eq_ok_iff, ← encode_cntrd_toNat, BitVec.ofNat_toNat, BitVec.setWidth_eq]
  · rw [exec_cntrd_four, statusWord_toNat]
    rfl
  · obtain ⟨hx, h4⟩ := counterOf?_reserved idx hidx
    have hcause : (takeFault .illegalCmd s).fcause = 8 := by
      rw [takeFault_fcause, hs]
      rfl
    exact ⟨_, _, exec_cntrd_of_reserved s hx h4, takeFault_fault s _, hcause, takeFault_response s _, rfl⟩

end Sys2Proof.Machine
end

section
/-! Reads at a source that gives no answer (60_exceptions.md R121): every access that meets a stall waits in the
state it stands in, and a waiting read asked again at the same access goes on waiting. -/

namespace Sys2Proof.Machine

variable {s u : State} {f : Option Byte} {tr : Transfer} {later : List Answer}

theorem readHeader_of_stall (h : s.source.answers = .stall :: later) :
    readHeader f s = s.await ⟨f, .header⟩ := by
  simp only [readHeader, srcRead_stall (k := Config.headerLen) (by decide) h]

theorem readSize_of_stall (h : s.source.answers = .stall :: later) :
    readSize f s = s.await ⟨f, .size⟩ := by
  simp only [readSize, srcAvail_stall h]

/-- Only a payload of at least one byte is asked of the source (20_memory.md R36). -/
theorem readPayload_of_stall (h : s.source.answers = .stall :: later)
    (hlen : 12 < (headerLength s.scratch.rhdr).toNat) : readPayload f s = s.await ⟨f, .payload⟩ := by
  cases hp : payloadLength (headerLength s.scratch.rhdr) with
  | none =>
    rw [payloadLength_of_le (Nat.le_of_lt hlen)] at hp
    cases hp
  | some plen =>
    have hplen := payloadLength_some hp
    have hne : plen.toNat ≠ 0 := by omega
    simp only [readPayload, hp, srcRead_stall hne h]

theorem readFooter_of_stall {body : List Byte} (h : s.source.answers = .stall :: later) :
    readFooter f body s = s.await ⟨f, .footer body⟩ := by
  simp only [readFooter, srcRead_stall (k := Config.footerLen) (by decide) h]

/-- At a source that still gives no answer a read waits on at its access. -/
theorem resumeAt_of_stall (h : s.source.answers = .stall :: later)
    (hfits : tr.phase.Fits s.scratch.rhdr) : resumeAt tr s = s.await tr := by
  obtain ⟨f, p⟩ := tr
  cases p with
  | header => exact readHeader_of_stall h
  | size => exact readSize_of_stall h
  | payload => exact readPayload_of_stall h hfits
  | footer body => exact readFooter_of_stall h

/-- With `FAULT` = 0 a step of a waiting block resumes its read. -/
theorem step_of_waiting (htr : s.transfer = some tr) (hs : s.fault = false) :
    step s = .next (resumeAt tr s) := by
  simp only [step, htr, resumeRead, unlessFaulted_of_clear hs]

/-- What a read that began in `s` has kept in `u`, whichever of its accesses have been answered. -/
structure Reading (s u : State) : Prop where
  fault : u.fault = false
  counters : u.counters = s.counters
  pending : u.pending = s.pending
  cursor : s.source.pos ≤ u.source.pos

/-- If a read that began in `s` waits in `w`, it has moved no counter, taken no request and delivered no
response, and a step of `w` changes nothing. -/
def StandsStill (s w : State) : Prop :=
  ∀ tr, w.transfer = some tr → Reading s w ∧ w.response = none ∧ step w = .next w

theorem StandsStill.of_ended {w : State} (h : w.transfer = none) : StandsStill s w := by
  intro tr htr
  rw [h] at htr
  cases htr

theorem Reading.standsStill {p : Phase} (h : Reading s u) (hfits : p.Fits u.scratch.rhdr)
    (hstall : u.source.answers.head? = some .stall) : StandsStill s (u.await ⟨f, p⟩) := by
  obtain ⟨later, hu⟩ := List.head?_eq_some_iff.1 hstall
  intro tr htr
  have hresume : resumeAt ⟨f, p⟩ (u.await ⟨f, p⟩) = u.await ⟨f, p⟩ :=
    resumeAt_of_stall (s := u.await ⟨f, p⟩) (tr := ⟨f, p⟩) hu hfits
  exact ⟨⟨h.fault, h.counters, h.pending, h.cursor⟩, rfl,
    (step_of_waiting (s := u.await ⟨f, p⟩) rfl h.fault).trans (congrArg _ hresume)⟩

/-- Counting ends a command if what follows does. -/
theorem count_transfer {k : State → State} (hk : ∀ v, (k v).transfer = none) (xs : List CounterName)
    (s : State) : (count xs s k).transfer = none := by
  rcases count_cases xs s k with ⟨-, e⟩ | ⟨c, -, e⟩
  · rw [e, takeFault_transfer]
  · rw [e, hk]

@[simp] theorem dropSize_transfer (s : State) : (dropSize s).transfer = none :=
  count_transfer (fun _ => rfl) _ s

@[simp] theorem dropFooter_transfer (s : State) : (dropFooter s).transfer = none :=
  count_transfer (fun _ => rfl) _ s

@[simp] theorem ioError_transfer (s : State) : (ioError s).transfer = none :=
  count_transfer (fun _ => rfl) _ s

/-- A read whose frame is sound has ended, filtered or not. -/
theorem countFrame_transfer (f : Option Byte) (body : List Byte) (s : State) :
    (count [.framesRead] s fun s =>
      if passesFilter f body then s.respondSome (.payload body) else s.respondNone .filtered).transfer
      = none := by
  refine count_transfer (fun v => ?_) _ s
  split <;> rfl

@[simp] theorem readFinish_transfer (f : Option Byte) (body : List Byte) (s : State) :
    (readFinish f body s).transfer = none := by
  rcases readFinish_cases f body s with ⟨-, e⟩ | ⟨-, -, -, e⟩ | ⟨-, -, e⟩
  · rw [e, dropFooter_transfer]
  · rw [e, takeFault_transfer]
  · rw [e, countFrame_transfer]

/-- A read either has ended or stands still. -/
theorem readClosed_standsStill (s : State) (f : Option Byte) :
    ReadClosed f Phase.Fits (Reading s) (StandsStill s) where
  fits _ _ h := h
  consume _ _ hu := ⟨hu.fault, hu.counters, hu.pending, Nat.le_add_right_of_le hu.cursor⟩
  asked _ hu := ⟨hu.fault, hu.counters, hu.pending, hu.cursor⟩
  rhdr _ _ hu := ⟨hu.fault, hu.counters, hu.pending, hu.cursor⟩
  rftr _ _ hu := ⟨hu.fault, hu.counters, hu.pending, hu.cursor⟩
  dropSize u _ := .of_ended (dropSize_transfer u)
  dropFooter u _ := .of_ended (dropFooter_transfer u)
  ioError u _ := .of_ended (ioError_transfer u.streamError)
  takeFault c u _ _ := .of_ended (takeFault_transfer u c)
  await _ _ hu hfits hstall := hu.standsStill hfits hstall
  finish u body _ _ := .of_ended (countFrame_transfer f body u)

theorem readHeader_standsStill (f : Option Byte) (hs : s.fault = false) :
    StandsStill s (readHeader f s) :=
  (readClosed_standsStill s f).readHeader ⟨hs, rfl, rfl, Nat.le_refl _⟩

/-- Every command but a read has ended. -/
theorem exec_standsStill {i : Instr} {w : State} (h : exec i s = .next w) (hs : s.fault = false) :
    StandsStill s w := by
  by_cases hr : ∃ f, i = readCommand f
  · obtain ⟨f, rfl⟩ := hr
    rw [exec_readCommand f hs] at h
    cases h
    exact readHeader_standsStill f hs
  · rw [not_exists] at hr
    rcases exec_cases_of_not_read h hs (hr none) (fun cat => hr (some cat)) with
      ⟨r, rfl⟩ | ⟨-, r, rfl⟩ | ⟨-, hdr, ftr, r, rfl⟩ | ⟨idx, -, rfl⟩
    · exact .of_ended (State.respond_transfer s r)
    · exact .of_ended (State.respond_transfer _ r)
    · exact .of_ended (State.respond_transfer _ r)
    · exact .of_ended (takeFault_transfer s _)

end Sys2Proof.Machine
end

section
/-! A read does not see that it has waited: what an access and all that follows it do depends neither on the
transfer in progress nor on the response that stands, since every ending writes both (30_encoding.md R66). -/

namespace Sys2Proof.Machine

variable (s : State) (f : Option Byte) (tr : Transfer)

theorem srcRead_await (k : Nat) :
    srcRead k (s.await tr) = ((srcRead k s).1, (srcRead k s).2.await tr) := by
  unfold srcRead
  rw [State.await_source]
  split
  · rfl
  · split <;> rfl

theorem srcAvail_await : srcAvail (s.await tr) = ((srcAvail s).1, (srcAvail s).2.await tr) := by
  unfold srcAvail
  rw [State.await_source]
  split <;> rfl

theorem count_await {k : State → State} (xs : List CounterName) (hk : ∀ v : State, k (v.await tr) = k v) :
    count xs (s.await tr) k = count xs s k := by
  unfold count
  rw [State.await_counters, State.await_cw]
  cases s.counters.incAll s.cw xs with
  | none => rfl
  | some c => exact hk (s.setCounters c)

theorem dropSize_await : dropSize (s.await tr) = dropSize s := count_await s tr _ fun _ => rfl

theorem dropFooter_await : dropFooter (s.await tr) = dropFooter s := count_await s tr _ fun _ => rfl

theorem ioError_await : ioError (s.await tr) = ioError s := count_await s tr _ fun _ => rfl

theorem readFinish_await (body : List Byte) :
    readFinish f body (s.await tr) = readFinish f body s := by
  unfold readFinish
  rw [State.await_scratch]
  split
  · exact dropFooter_await s tr
  · split
    · rfl
    · exact count_await s tr _ fun _ => rfl

theorem readFooter_await (body : List Byte) :
    readFooter f body (s.await tr) = readFooter f body s := by
  unfold readFooter
  rw [srcRead_await]
  rcases srcRead Config.footerLen s with ⟨r, v⟩
  cases r with
  | noAnswer => rfl
  | err => exact ioError_await v tr
  | answer b =>
    simp only
    split
    · rfl
    · exact readFinish_await (v.setRftr _) f tr body

theorem readPayload_await : readPayload f (s.await tr) = readPayload f s := by
  unfold readPayload
  rw [State.await_scratch]
  split
  · rfl
  · rename_i plen _
    rw [srcRead_await]
    rcases srcRead plen.toNat s with ⟨r, v⟩
    cases r with
    | noAnswer => rfl
    | err => exact ioError_await v tr
    | answer b =>
      simp only
      split
      · rfl
      · exact readFooter_await v f tr b

theorem readSize_await : readSize f (s.await tr) = readSize f s := by
  unfold readSize
  rw [srcAvail_await]
  rcases srcAvail s with ⟨r, v⟩
  cases r with
  | noAnswer => rfl
  | err => exact ioError_await v tr
  | answer a =>
    simp only [State.await_scratch]
    split
    · exact readPayload_await v f tr
    · exact dropSize_await v tr

theorem readHeader_await : readHeader f (s.await tr) = readHeader f s := by
  unfold readHeader
  rw [srcRead_await]
  rcases srcRead Config.headerLen s with ⟨r, v⟩
  cases r with
  | noAnswer => rfl
  | err => exact ioError_await v tr
  | answer b =>
    simp only
    split
    · exact dropSize_await v tr
    · exact readSize_await (v.setRhdr _) f tr

theorem resumeAt_await (tr' : Transfer) : resumeAt tr' (s.await tr) = resumeAt tr' s := by
  obtain ⟨f, p⟩ := tr'
  cases p with
  | header => exact readHeader_await s f tr
  | size => exact readSize_await s f tr
  | payload => exact readPayload_await s f tr
  | footer body => exact readFooter_await s f tr body

end Sys2Proof.Machine
end

section
/-! A read whose source answers after all (60_exceptions.md R121, 42_frame_operations.md R91): the first stall
of the answers is the one a read waits at, so taking it away before the command or while it waits comes to the
same. -/

namespace Sys2Proof.Machine

/-- The state on the stream without its first stall. -/
def State.unstalled (s : State) : State :=
  s.setSource { s.source with answers := s.source.answers.erase .stall }

/-- If a read waits in `w`, then once the source has answered it goes on to `t`. -/
def ResumesTo (w t : State) : Prop :=
  ∀ tr, w.transfer = some tr → resumeAt tr w.sourceAnswers = t

variable {s v w t : State} {f : Option Byte} {later : List Answer}

@[simp] theorem State.unstalled_scratch (s : State) : s.unstalled.scratch = s.scratch := by rfl
@[simp] theorem State.setRhdr_unstalled (s : State) (h : Bytes8) :
    s.unstalled.setRhdr h = (s.setRhdr h).unstalled := by rfl

@[simp] theorem State.sourceAnswers_fault (s : State) : s.sourceAnswers.fault = s.fault := by
  unfold State.sourceAnswers
  split <;> rfl

@[simp] theorem State.sourceAnswers_transfer (s : State) : s.sourceAnswers.transfer = s.transfer := by
  unfold State.sourceAnswers
  split <;> rfl

/-- The answering event takes away the stall a read waits at. -/
theorem State.sourceAnswers_await (tr : Transfer) (h : s.source.answers = .stall :: later) :
    (s.await tr).sourceAnswers = s.unstalled.await tr := by
  simp only [State.sourceAnswers, State.unstalled, State.await_source, h, List.erase_cons_head]
  rfl

theorem ResumesTo.of_ended (h : w.transfer = none) : ResumesTo w t := by
  intro tr htr
  rw [h] at htr
  cases htr

theorem ResumesTo.of_stall {p : Phase} (h : s.source.answers = .stall :: later) :
    ResumesTo (s.await ⟨f, p⟩) (resumeAt ⟨f, p⟩ s.unstalled) := by
  intro tr htr
  cases htr
  rw [State.sourceAnswers_await _ h, resumeAt_await]

/-- An access that is answered is answered alike without the stall to come. -/
theorem Answered.unstalled {answers : List Answer} {left given : Nat}
    (h : Answered answers left given later) :
    Answered (answers.erase .stall) left given (later.erase .stall) := by
  rcases h with ⟨rfl, rfl, rfl⟩ | ⟨rfl, rfl⟩ | ⟨m, rfl, rfl⟩
  · exact answered_plain _
  · exact answered_full _ _
  · exact answered_upTo _ _ _

/-- A source read meets the stall, or `Err`, or goes alike on the stream without the stall. -/
theorem srcRead_unstalled_cases (k : Nat) (s : State) :
    (srcRead k s = (.noAnswer, s) ∧ ∃ later, s.source.answers = .stall :: later) ∨
    (∃ v, srcRead k s = (.err, v)) ∨
    ∃ b v, srcRead k s = (.answer b, v) ∧ srcRead k s.unstalled = (.answer b, v.unstalled) := by
  by_cases hk : k = 0
  · subst hk
    exact .inr (.inr ⟨[], s, rfl, rfl⟩)
  rcases answered_cases s.source.answers s.upcoming.length with
    ⟨later, ha⟩ | ⟨later, ha⟩ | ⟨given, later, ha⟩
  · exact .inl ⟨srcRead_stall hk ha, later, ha⟩
  · exact .inr (.inl ⟨_, srcRead_err hk ha⟩)
  · exact .inr (.inr ⟨_, _, srcRead_answered hk ha, srcRead_answered (s := s.unstalled) hk ha.unstalled⟩)

theorem readFooter_resumes (s : State) (f : Option Byte) (body : List Byte) :
    ResumesTo (readFooter f body s) (readFooter f body s.unstalled) := by
  rcases srcRead_unstalled_cases Config.footerLen s with ⟨-, later, h⟩ | ⟨v, e⟩ | ⟨b, v, e, -⟩
  · rw [readFooter_of_stall h]
    exact .of_stall h
  · simp only [readFooter, e]
    exact .of_ended (ioError_transfer v)
  · refine .of_ended ?_
    simp only [readFooter, e]
    split
    · exact takeFault_transfer v _
    · exact readFinish_transfer f body _

theorem readPayload_resumes (s : State) (f : Option Byte) :
    ResumesTo (readPayload f s) (readPayload f s.unstalled) := by
  cases hp : payloadLength (headerLength s.scratch.rhdr) with
  | none =>
    simp only [readPayload, hp]
    exact .of_ended (takeFault_transfer s _)
  | some plen =>
    rcases srcRead_unstalled_cases plen.toNat s with ⟨e, later, h⟩ | ⟨v, e⟩ | ⟨b, v, e, e'⟩
    · have hwaits : readPayload f s = s.await ⟨f, .payload⟩ := by simp only [readPayload, hp, e]
      rw [hwaits]
      exact .of_stall h
    · simp only [readPayload, hp, e]
      exact .of_ended (ioError_transfer v)
    · simp only [readPayload, State.unstalled_scratch, hp, e, e']
      split
      · exact .of_ended (takeFault_transfer v _)
      · exact readFooter_resumes v f b

theorem readSize_resumes (s : State) (f : Option Byte) :
    ResumesTo (readSize f s) (readSize f s.unstalled) := by
  rcases answered_cases s.source.answers s.upcoming.length with
    ⟨later, h⟩ | ⟨later, h⟩ | ⟨given, later, h⟩
  · rw [readSize_of_stall h]
    exact .of_stall h
  · simp only [readSize, srcAvail_err h]
    exact .of_ended (ioError_transfer _)
  · simp only [readSize, srcAvail_answered h, srcAvail_answered (s := s.unstalled) h.unstalled,
      State.setSource_scratch, State.unstalled_scratch]
    split
    · exact readPayload_resumes (s.past 0 later) f
    · exact .of_ended (dropSize_transfer _)

theorem readHeader_resumes (s : State) (f : Option Byte) :
    ResumesTo (readHeader f s) (readHeader f s.unstalled) := by
  rcases srcRead_unstalled_cases Config.headerLen s with ⟨-, later, h⟩ | ⟨v, e⟩ | ⟨b, v, e, e'⟩
  · rw [readHeader_of_stall h]
    exact .of_stall h
  · simp only [readHeader, e]
    exact .of_ended (ioError_transfer v)
  · simp only [readHeader, e, e', State.setRhdr_unstalled]
    split
    · exact .of_ended (dropSize_transfer v)
    · exact readSize_resumes (v.setRhdr _) f

end Sys2Proof.Machine
end

section
/-! The statements of 60_exceptions.md: a command that waits for its source, and that no command stops the
machine. -/

namespace Sys2Proof.Machine

/-- Settles O42: whatever is left in progress stands still, and a read stalled at its first access is stalled in
the state it began in. -/
theorem stalledReadWaits : Obligations.StalledReadWaits := by
  refine ⟨fun s w i tr h hs htr => ?_, fun s f later hs hstall => ?_⟩
  · obtain ⟨hreading, hresp, hstep⟩ := exec_standsStill h hs tr htr
    exact ⟨hstep, hreading.counters, hreading.fault, hresp, hreading.pending, hreading.cursor⟩
  · rw [exec_readCommand f hs, readHeader_of_stall hstall]
    rfl

/-- Settles O43: the resumed read comes to what the whole read comes to on the stream without the stall. -/
theorem answeredReadResumes : Obligations.AnsweredReadResumes := by
  intro s w f h hs hw
  rw [exec_readCommand f hs] at h
  cases h
  obtain ⟨tr, htr⟩ := Option.ne_none_iff_exists'.1 hw
  obtain ⟨hreading, -, -⟩ := readHeader_standsStill f hs tr htr
  calc step (readHeader f s).sourceAnswers
      = .next (resumeAt tr (readHeader f s).sourceAnswers) :=
        step_of_waiting ((State.sourceAnswers_transfer _).trans htr)
          ((State.sourceAnswers_fault _).trans hreading.fault)
    _ = .next (readHeader f s.unstalled) := congrArg _ (readHeader_resumes s f tr htr)
    _ = exec (readCommand f) s.unstalled := (exec_readCommand (s := s.unstalled) f hs).symm

/-- Settles O5: every arm of the dispatch is a next state, a fault of the block included (log entry 12). -/
theorem everyCommandAnswersNext : Obligations.EveryCommandAnswersNext := by
  intro i s
  cases i with
  | _ => exact ⟨_, rfl⟩

end Sys2Proof.Machine
end

section
/-! A response that delivers a payload (42_frame_operations.md R91, R93): a fault and a drop carry another
cause, and on the plain source the payload is no longer than a 16-bit length field can declare. The plain
source stays the plain one past the bytes a read consumes. -/

namespace Sys2Proof.Machine

variable {s : State} {f : Option Byte} {body p : List Byte} {d : Data}

/-- A fault answers with its own cause, never with `OK`. -/
theorem takeFault_response_ne_ok (c : FaultCause) (s : State) (d : Data) :
    (takeFault c s).response ≠ some ⟨true, 0, d⟩ := by
  intro h
  have hcode : c.code = 0 := congrArg Response.cause (Option.some.inj h)
  have hrange := c.code_range.1
  rw [hcode] at hrange
  exact absurd hrange (by decide)

/-- A counting operation that ends with cause `OK` is what follows it, on moved counters. -/
theorem count_of_ok {xs : List CounterName} {k : State → State}
    (h : (count xs s k).response = some ⟨true, 0, d⟩) : ∃ c, count xs s k = k (s.setCounters c) := by
  rcases count_cases xs s k with ⟨-, e⟩ | ⟨c, -, e⟩
  · exact absurd (e ▸ h) (takeFault_response_ne_ok _ _ _)
  · exact ⟨c, e⟩

/-- A counted `none` delivers nothing. -/
theorem count_respondNone_response_ne_ok (xs : List CounterName) (s : State) (c : Cause) (d : Data) :
    (count xs s fun v => v.respondNone c).response ≠ some ⟨true, 0, d⟩ := by
  intro h
  obtain ⟨cs, e⟩ := count_of_ok h
  rw [e] at h
  cases h

/-- Once the footer is read, the only payload a read can deliver is the one it has read. -/
theorem readFinish_delivers (h : (readFinish f body s).response = some ⟨true, 0, .payload p⟩) :
    p = body := by
  rcases readFinish_cases f body s with ⟨-, e⟩ | ⟨-, -, -, e⟩ | ⟨-, -, e⟩
  · exact absurd (e ▸ h) (count_respondNone_response_ne_ok _ _ _ _)
  · exact absurd (e ▸ h) (takeFault_response_ne_ok _ _ _)
  · rw [e] at h
    obtain ⟨c, e⟩ := count_of_ok h
    rw [e] at h
    split at h
    · cases h
      rfl
    · cases h

/-- A payload that the length field of its frame declares has at most 65523 bytes (90_conflicts.md C5). -/
theorem State.FrameArrives.body_length_le {hdr : Bytes8} {ftr : Bytes4} {rest : List Byte}
    {later : List Answer} (h : s.FrameArrives hdr body ftr rest later) : body.length ≤ 65523 := by
  obtain ⟨hdeclared, -⟩ := h
  have hlt := (headerLength hdr).isLt
  rw [headerLength_toNat, ← declared, hdeclared] at hlt
  omega

/-- Of the ways the plain source can carry a read, only a frame that arrives delivers a payload: its own. -/
theorem State.PlainSource.delivered_length_le (hp : s.PlainSource)
    (h : (readHeader f s).response = some ⟨true, 0, .payload p⟩) : p.length ≤ 65523 := by
  rcases hp.arrival_cases with
    hshort | ⟨hdr, rest, hk, hover | ⟨hunder, hfits⟩ | ⟨body, ftr, rest', harr⟩⟩
  · rw [readHeader_of_short hp.answered hshort] at h
    exact absurd h (count_respondNone_response_ne_ok _ _ _ _)
  · rw [readHeader_of_oversize hk hover] at h
    exact absurd h (count_respondNone_response_ne_ok _ _ _ _)
  · rw [readHeader_of_underflow hk hunder hfits] at h
    exact absurd h (takeFault_response_ne_ok _ _ _)
  · rw [readHeader_of_frameArrives harr] at h
    rw [readFinish_delivers h]
    exact harr.body_length_le

/-- Consuming bytes that are there leaves the plain source plain. -/
theorem State.PlainSource.past {k : Nat} (hp : s.PlainSource) (hk : k ≤ s.upcoming.length) :
    (s.past k []).PlainSource := by
  obtain ⟨-, hrange⟩ := hp
  refine ⟨rfl, ?_⟩
  rw [← s.left_eq] at hk
  simp only [Source.InRange, Source.left, State.setSource_source] at hrange hk ⊢
  omega

end Sys2Proof.Machine
end

section
/-! The statements of 70_reset_and_hazards.md: a payload whose length wraps (R133), and the frame boundary lost
after a size drop (R136). -/

namespace Sys2Proof.Machine

/-- Settles O41: the frame is built whole, and what a read of it delivers is too short to be the payload. -/
theorem oversizePayloadIsNotReturned : Obligations.OversizePayloadIsNotReturned := by
  intro e he hp hlen
  refine ⟨_, _, exec_encode_of_payload he hp (by omega), rfl, buildFrame_length _ _ _,
    fun r hr hsrc => ⟨_, exec_readCommand none hr, fun hresp => ?_⟩⟩
  have hplain : r.PlainSource := by
    rw [State.PlainSource, hsrc]
    exact ⟨rfl, Nat.zero_le _⟩
  have hshort := hplain.delivered_length_le hresp
  omega

/-- Settles O56: the read is the size drop of R91 step 3, which has consumed the header alone. -/
theorem droppedFrameLosesBoundary : Obligations.DroppedFrameLosesBoundary := by
  intro s t filter hdr rest hs hp hu hover h ht
  rw [exec_readCommand filter hs] at h
  cases h
  rw [readHeader_of_oversize (hp.sizeKnown hu) hover] at ht ⊢
  obtain ⟨c, e⟩ := dropSize_of_clear ht
  rw [e]
  exact ⟨State.upcoming_past hu, hp.past (by simp [hu])⟩

end Sys2Proof.Machine
end
